-- ==== Sys2Proof/Word.lean ====
section
/-! DEFINITION. The words of the block: bytes of the framebuffer and of the asset memory, 16-bit command words, 32-bit registers. -/

namespace Sys2Proof

/-- A byte of the framebuffer, of the asset memory or of the display sink (R50). -/
abbrev Byte := BitVec 8

/-- One transfer on the command port (R53, R70). -/
abbrev Word := BitVec 16

/-- A 32-bit register or clock sample (R25, R34, R180). -/
abbrev DWord := BitVec 32

/-- A point with exact integer coordinates: column first, row second (R10, R13). -/
abbrev Point := Int × Int

end Sys2Proof
end

