-- ==== Sys2Proof/Config.lean ====
section
/-! DEFINITION. What is fixed when the block is built (00_scope.md R6 to R9), and the free values: opaque constants for what the spec leaves unconstrained. -/

namespace Sys2Proof

/-- The implementation parameters of R6, fixed when the block is built. A State carries one such record and no step
changes it (log entry 1). FRAMECOUNT_W is a width of a type, so it stands beside as `Config.frameCountW`. -/
structure Params where
  /-- WIDTH: framebuffer width in pixels. -/
  width : Nat
  /-- HEIGHT: framebuffer height in pixels, a positive multiple of 8. -/
  height : Nat
  /-- SAFE_MODE: bounds check on the pixel primitive (R8). -/
  safeMode : Bool
  /-- IDLE_THRESHOLD_MS: remaining time above which NEXTFRAME requests idle (R9). -/
  idleThresholdMs : Nat
  /-- SRC_SIZE: size of the asset memory in bytes (R55). -/
  srcSize : Nat
  deriving DecidableEq, Repr

/-- FB_BYTES = WIDTH * HEIGHT / 8 (R6, R20). -/
def Params.fbBytes (p : Params) : Nat := p.width * p.height / 8

/-- BANDS = HEIGHT / 8 (R6). -/
def Params.bands (p : Params) : Nat := p.height / 8

/-- The constraints R6 puts on the parameters, R9's range of the idle threshold, and R6's range of SRC_SIZE. -/
abbrev Params.Legal (p : Params) : Prop :=
  1 ≤ p.width ∧ p.width ≤ 32767 ∧
  8 ≤ p.height ∧ p.height ≤ 32760 ∧ p.height % 8 = 0 ∧
  p.idleThresholdMs < 2 ^ 32 ∧
  1 ≤ p.srcSize ∧ p.srcSize ≤ 2 ^ 32

/-- FRAMECOUNT_W: width of FRAME_COUNT in bits (R6, R28). -/
abbrev Config.frameCountW : Nat := 32

/-- SRC_SIZE is OPEN in R6 ("1 to 2^32"): a free value, one less than the size. -/
opaque Config.srcSizeLessOne : Fin (2 ^ 32)

/-- R24, R250: what byte `i` of the framebuffer holds after the reset numbered `epoch`: "an arbitrary value, which a
model takes as a free draw per byte". -/
opaque Config.fbDraw (epoch i : Nat) : Byte

/-- R103: "v is an unconstrained 32-bit draw", one for each out-of-range GETPX, numbered by `n`. -/
opaque Config.getpxDraw (n : Nat) : DWord

/-- R39, R55: the contents of the asset memory are supplied by the platform and are a parameter of the model: the byte
at an address for which the State lists none. -/
opaque Config.srcDraw (a : Nat) : Byte

/-- R6: the values for this hardware; SRC_SIZE is left open. -/
def Config.thisHardware : Params where
  width := 128
  height := 64
  safeMode := true
  idleThresholdMs := 1
  srcSize := Config.srcSizeLessOne.val + 1

end Sys2Proof
end

