-- ==== Sys2Proof/Machine/State.lean ====
section
/-! DEFINITION. The state of the block (10_state.md), of the interfaces it stands between (00_scope.md R3), the reasons a step can stop, and the state after reset (70_reset_and_hazards.md R250). -/

namespace Sys2Proof.Machine

/-- A byte memory: (address, byte) pairs. An address that is not listed holds no byte of its own: what it reads as is a
free value (`State.fbByte` for the framebuffer, `State.srcByte` for the asset memory; log entries 4 and 6). -/
abbrev Memory := List Host.Cell

/-- The canonical form: addresses strictly rising. No entry equals what an unlisted address holds, since an unlisted
address holds no byte. -/
abbrev Memory.wf (m : Memory) : Prop := m.Pairwise fun c d => c.1 < d.1

/-- Every listed address is below the size of its space (R50). -/
abbrev Memory.below (m : Memory) (size : Nat) : Prop := ∀ c ∈ m, c.1 < size

/-- The statuses a command can end with (R220). -/
inductive Status where
  | ok
  | illegalOpcode
  | reservedField
  | operandRange
  | faulted
  deriving DecidableEq, Repr

/-- The causes of the block's sticky fault state (R225). -/
inductive FaultCause where
  | pixelRange
  | srcRange
  | clockRegression
  | timeOverflow
  deriving DecidableEq, Repr

/-- What an agent outside the block does next, in the order it happens. -/
inductive Input where
  /-- The host writes a word to the command port (R3). -/
  | word (w : Word)
  /-- The host's millisecond clock moves to a value (R180). -/
  | clock (t : DWord)
  /-- The host changes a byte of the asset memory (R56). -/
  | asset (a : DWord) (b : Byte)
  /-- The display sink takes the next byte of a PRESENT transfer (R200). -/
  | sinkTake
  /-- The platform asserts reset (R251). -/
  | reset
  deriving DecidableEq, Repr

/-- The two output events besides the response (R229). -/
inductive Event where
  /-- One pulse of the idle output, which carries no value (R184). -/
  | idleReq
  /-- `Present(bytes)` on the display sink (R200). -/
  | present (bytes : List Byte)
  deriving DecidableEq, Repr

/-- The state. The block's own registers are those of 10_state.md; the rest is what stands at its interfaces, the free
values' counters, and the parameters. -/
structure State where
  /-- The implementation parameters (R6), not state of the block (R39): no step changes them. -/
  params : Params
  /-- FB, the framebuffer (R20): the bytes written since the reset numbered `fbEpoch`. -/
  fb : Memory
  /-- The model's own: which reset's free draws the unwritten framebuffer bytes hold (R24). -/
  fbEpoch : Nat
  /-- FRAME_RATE (R26). -/
  frameRate : BitVec 8
  /-- EACH_FRAME_MS (R27). -/
  eachFrameMs : BitVec 16
  /-- FRAME_COUNT (R28). -/
  frameCount : BitVec Config.frameCountW
  /-- LAST_FRAME_START (R29). -/
  lastFrameStart : BitVec 32
  /-- NEXT_FRAME_START (R29). -/
  nextFrameStart : BitVec 32
  /-- LAST_FRAME_DURATION (R30). -/
  lastFrameDuration : BitVec 16
  /-- POST_RENDER_PENDING (R31). -/
  postRenderPending : Bool
  /-- CLOCK_LAST (R33). -/
  clockLast : BitVec 32
  /-- RESP_STATUS (R34). -/
  respStatus : BitVec 8
  /-- RESP_RESULT (R34). -/
  respResult : BitVec 32
  /-- CMD_BUF, the command assembler (R35). -/
  cmdBuf : List Word
  /-- BUSY (R36). -/
  busy : Bool
  /-- The transfer BUSY stands for (R201): the bytes of the current PRESENT the sink has not taken yet. -/
  sinkLeft : List Byte
  /-- FAULTED (R37). -/
  faulted : Bool
  /-- FAULT_CAUSE (R37). -/
  faultCause : BitVec 8
  /-- The value on the clock input (R180). -/
  clock : DWord
  /-- SRC, the asset memory (R55): the bytes the host has placed; the platform's own stand behind them. -/
  src : Memory
  /-- What the agents outside the block do from here on, next first. -/
  inputs : List Input
  /-- The output events so far, oldest first. -/
  out : List Event
  /-- The model's own: the number of the next free value (R24, R103). -/
  draws : Nat
  deriving DecidableEq, Repr

/-- The reasons a step stops with a fault: none. The block's own faults are states it goes on from (R226, R227):
`FAULTED` is a register, and every command has a stated end. -/
inductive Fault where
  deriving DecidableEq, Repr

/-- The reasons a step refuses an instruction. -/
inductive Refusal where
  /-- An instruction with no meaning yet, raised by an arm of `exec` only; safe. No arm raises it. The block's own refusals
  of a command (R221) are responses and next states. -/
  | notModelled (mnemonic : String)
  deriving DecidableEq, Repr

/-- What a step answers. -/
abbrev Result := Host.Outcome State Fault Refusal

/-- The reset state of R250. The framebuffer lists nothing, so each of its bytes is a free draw; nothing has happened yet at
the interfaces (log entries 5, 7 and 8). -/
def State.reset : State where
  params := Config.thisHardware
  fb := []
  fbEpoch := 0
  frameRate := 60
  eachFrameMs := 16
  frameCount := 0
  lastFrameStart := 0
  nextFrameStart := 0
  lastFrameDuration := 0
  postRenderPending := false
  clockLast := 0
  respStatus := 0
  respResult := 0
  cmdBuf := []
  busy := false
  sinkLeft := []
  faulted := false
  faultCause := 0
  clock := 0
  src := []
  inputs := []
  out := []
  draws := 1

end Sys2Proof.Machine
end

