-- ==== Sys2Proof/Syntax.lean ====
section
/-! DEFINITION. The commands of the block: one constructor per row of spec/opcode_table.json (30_encoding.md R78). -/

namespace Sys2Proof

/-- The combine operator, "a small closed set of draw-combine operators {Set, Clear, Invert}" (R12). -/
inductive CombineOp where
  | clear
  | set
  | invert
  deriving DecidableEq, Repr

/-- A command (R78). Operands stand in the order of the operand words, after the header's fields. S16 and U16 operands are
the whole word; a U8 operand is the word's low byte (R73). -/
inductive Instr where
  | setpx (op : CombineOp) (x y : Word)
  | getpx (x y : Word)
  | fill (op : CombineOp)
  | line (op : CombineOp) (x0 y0 x1 y1 : Word)
  | hline (op : CombineOp) (x y w : Word)
  | vline (op : CombineOp) (x y ht : Word)
  | circle (op : CombineOp) (x0 y0 : Word) (r : Byte)
  | circh (op : CombineOp) (msk : BitVec 4) (x0 y0 : Word) (r : Byte)
  | fcirc (op : CombineOp) (x0 y0 : Word) (r : Byte)
  | fcirch (op : CombineOp) (msk : BitVec 2) (x0 y0 : Word) (r : Byte) (delta : Word)
  | blit (op : CombineOp) (x y alo ahi w ht : Word)
  | slowblit (op : CombineOp) (x y alo ahi w ht : Word)
  | setfps (rate : Byte)
  | nextframe
  | cpuload
  | everyx (n : Byte)
  | present
  deriving DecidableEq, Repr

end Sys2Proof
end

