-- ==== Sys2Proof/Machine/Ops.lean ====
section
/-! DEFINITION. The shared operations: memory and framebuffer access, the combine operator, the pixel primitive and plot lists, the response registers, errors, entry into the sticky fault state, and reset, the only way out of it. -/

namespace Sys2Proof.Machine

/-- The byte listed at an address. -/
def Memory.read : Memory → Nat → Option Byte
  | [], _ => none
  | (b, v) :: m, a => if a = b then some v else Memory.read m a

/-- A memory with one byte set; the listing keeps its order. -/
def Memory.write : Memory → Nat → Byte → Memory
  | [], a, v => [(a, v)]
  | (b, w) :: m, a, v =>
    if a < b then (a, v) :: (b, w) :: m
    else if a = b then (a, v) :: m
    else (b, w) :: Memory.write m a v

/-- `Combine(op, b, m)` (R12). -/
def combine (op : CombineOp) (b m : Byte) : Byte :=
  match op with
  | .set => b ||| m
  | .clear => b &&& ~~~ m
  | .invert => b ^^^ m

/-- R16: a point is in range when `0 <= x < WIDTH` and `0 <= y < HEIGHT`. -/
def inRange (p : Params) (q : Point) : Bool :=
  decide (0 ≤ q.1 ∧ q.1 < (p.width : Int) ∧ 0 ≤ q.2 ∧ q.2 < (p.height : Int))

/-- `ByteIndex(x, y) = (y div 8) * WIDTH + x` (R20), for an in-range point. -/
def byteIndex (p : Params) (q : Point) : Nat := q.2.toNat / 8 * p.width + q.1.toNat

/-- `BitPos(y) = y mod 8` (R20). -/
def bitPos (q : Point) : Nat := q.2.toNat % 8

/-- The byte mask of a pixel, `1 << (y mod 8)` (R100). -/
def bitMask (q : Point) : Byte := 1#8 <<< bitPos q

/-- `FB[i]` (R11): the byte written last, or the reset's free draw (R24). -/
def State.fbByte (s : State) (i : Nat) : Byte :=
  match s.fb.read i with
  | some b => b
  | none => Config.fbDraw s.fbEpoch i

/-- The state with another framebuffer content. -/
def State.withFb (s : State) (m : Memory) : State := { s with fb := m }

/-- `FB[i] <- Combine(op, FB[i], m)` (R58). An index outside the buffer is never written (R59). -/
def State.combineAt (op : CombineOp) (s : State) (i : Nat) (m : Byte) : State :=
  if i < s.params.fbBytes then s.withFb (s.fb.write i (combine op (s.fbByte i) m)) else s

/-- `Pixel(x, y)` (R20): ON is true (R22). -/
def State.pixel (s : State) (q : Point) : Bool := (s.fbByte (byteIndex s.params q)).getLsbD (bitPos q)

/-- `Plot(x, y, op)` (R100) where the command goes on: an in-range point is combined into its byte, any other point is
dropped. The check of R102 stands before every list of plots (`State.runPlots`). -/
def State.plot (op : CombineOp) (s : State) (q : Point) : State :=
  if inRange s.params q then s.combineAt op (byteIndex s.params q) (bitMask q) else s

/-- The plots of a list, in list order (R102). -/
def State.plotAll (op : CombineOp) (s : State) (ps : List Point) : State := ps.foldl (State.plot op) s

/-- `MemRead(SRC, a, 1)` (R55): the byte the host placed, or the platform's own. -/
def State.srcByte (s : State) (a : Nat) : Byte :=
  match s.src.read a with
  | some b => b
  | none => Config.srcDraw a

/-- R220: the code of a status. -/
def Status.code : Status → BitVec 8
  | .ok => 0x00
  | .illegalOpcode => 0x01
  | .reservedField => 0x02
  | .operandRange => 0x03
  | .faulted => 0x04

/-- R225: the code of a cause. -/
def FaultCause.code : FaultCause → BitVec 8
  | .pixelRange => 0x01
  | .srcRange => 0x02
  | .clockRegression => 0x03
  | .timeOverflow => 0x04

/-- The response registers written (R34). -/
def State.withResp (s : State) (st : Status) (v : DWord) : State :=
  { s with respStatus := st.code, respResult := v }

/-- `respond(v)` (R34): status OK and the result. -/
def State.respond (s : State) (v : DWord) : State := s.withResp .ok v

/-- `raise Error(code)` (R221): the status, result 0, nothing else. -/
def State.raiseError (s : State) (st : Status) : State := s.withResp st 0

/-- The fault registers written (R37). -/
def State.withFault (s : State) (c : FaultCause) : State :=
  { s with faulted := true, faultCause := c.code }

/-- `raise Fault(c)`, the one way into the sticky fault state (R226): FAULTED and FAULT_CAUSE, then the response
`FAULTED`/`c`. It is raised before the command's first write. -/
def State.raiseFault (s : State) (c : FaultCause) : State :=
  (s.withFault c).withResp .faulted (c.code.setWidth 32)

/-- R227: the end of every complete command while FAULTED = 1. -/
def State.respondFaulted (s : State) : State := s.withResp .faulted (s.faultCause.setWidth 32)

/-- R230, first condition: a command runs its body only when FAULTED = 0. -/
def State.command (s : State) (body : State → State) : Result :=
  .next (if s.faulted then s.respondFaulted else body s)

/-- R230, conditions 1 to 4, of a complete command that `decode` refuses. -/
def State.refuse (s : State) (st : Status) : State :=
  if s.faulted then s.respondFaulted else s.raiseError st

/-- An output event (R11, `emit`). -/
def State.emit (s : State) (e : Event) : State := { s with out := s.out ++ [e] }

/-- `RunPlots(P, op)` and the `respond(0)` after it (R102): under SAFE_MODE = 0 a list with an out-of-range point faults
before any write. -/
def State.runPlots (op : CombineOp) (s : State) (ps : List Point) : State :=
  if !s.params.safeMode && ps.any (fun q => !inRange s.params q) then s.raiseFault .pixelRange
  else (s.plotAll op ps).respond 0

/-- Reset (R250, R251), the only way out of the fault state (R252): every register at its reset value, each framebuffer byte
a fresh free draw, a command being assembled and a transfer in progress gone. The parameters, the asset memory, the clock
input, what the agents outside do next, and the events already emitted are not the block's to reset. -/
def State.resetBlock (s : State) : State :=
  { State.reset with
    params := s.params
    fbEpoch := s.draws
    clock := s.clock
    src := s.src
    inputs := s.inputs
    out := s.out
    draws := s.draws + 1 }

end Sys2Proof.Machine
end

