-- ==== Sys2Proof/Machine/Operands.lean ====
section
/-! DEFINITION. The operand forms of 30_encoding.md R73 and R74, as exact integers. -/

namespace Sys2Proof.Machine

/-- R73: an S16 operand, `sext(word)`. -/
def s16 (w : Word) : Int := w.toInt

/-- R73: a U16 operand, `zext(word)`. -/
def u16 (w : Word) : Nat := w.toNat

/-- R73: a U8 operand, `word[7:0]`. -/
def u8 (b : Byte) : Nat := b.toNat

/-- R74: `A = zext_32(AHI) << 16 | zext_32(ALO)`. -/
def srcAddr (alo ahi : Word) : Nat :=
  ((ahi.setWidth 32 <<< 16) ||| alo.setWidth 32 : DWord).toNat

end Sys2Proof.Machine
end

