-- ==== Sys2Proof/Machine/Bitmap.lean ====
section
/-! DEFINITION. Bitmap blits (43_bitmap.md): BLIT and SLOWBLIT, and the byte form of BLIT (R162). -/

namespace Sys2Proof.Machine

/-- R55: the command's source extent `[a, a + ext)` is not inside the asset memory; an empty extent always is. -/
def srcOutside (p : Params) (a ext : Nat) : Bool := decide (ext > 0) && decide (a + ext > p.srcSize)

/-- R160: the number of source bands of a packed image `h` pixels high, `(h + 7) div 8`. -/
def packedRows (h : Nat) : Nat := (h + 7) / 8

/-- The points of the set bits of one packed source byte at band `b`, column `i` (R161). -/
def packedBytePoints (x y : Int) (v : Byte) (b i : Nat) : List Point :=
  ((List.range 8).filter fun k => v.getLsbD k).map fun k => (x + (i : Int), y + 8 * (b : Int) + (k : Int))

/-- The points of the set bits of a packed image (R161), padding bits among them (R163). -/
def blitPoints (s : State) (x y : Int) (a w h : Nat) : List Point :=
  (List.range (packedRows h)).flatMap fun b =>
    (List.range w).flatMap fun i => packedBytePoints x y (s.srcByte (a + b * w + i)) b i

/-- BLIT (R161). It clips each pixel under both values of SAFE_MODE. -/
def execBlit (op : CombineOp) (x y alo ahi w ht : Word) (s : State) : Result :=
  s.command fun s =>
    if srcOutside s.params (srcAddr alo ahi) (u16 w * packedRows (u16 ht)) then s.raiseFault .srcRange
    else (s.plotAll op (blitPoints s (s16 x) (s16 y) (srcAddr alo ahi) (u16 w) (u16 ht))).respond 0

/-- One source byte of the byte form of BLIT (R162): split over two destination bytes of column `x + i` by the shift
`yOffset = Y mod 8`. -/
def State.blitByte (op : CombineOp) (x y : Int) (a w b : Nat) (s : State) (i : Nat) : State :=
  let c := x + (i : Int)
  if 0 ≤ c ∧ c < (s.params.width : Int) then
    let v := s.srcByte (a + b * w + i)
    let yOffset := (y.emod 8).toNat
    let band := (y - y.emod 8) / 8 + (b : Int)
    let s := if 0 ≤ band ∧ band < (s.params.bands : Int)
      then s.combineAt op (band.toNat * s.params.width + c.toNat) (v <<< yOffset) else s
    if yOffset ≠ 0 ∧ 0 ≤ band + 1 ∧ band + 1 < (s.params.bands : Int)
      then s.combineAt op ((band + 1).toNat * s.params.width + c.toNat) (v >>> (8 - yOffset)) else s
  else s

/-- The byte form of BLIT's drawing loop (R162): a second description of what `blitPoints` plots. -/
def State.blitBytes (op : CombineOp) (x y : Int) (a w h : Nat) (s : State) : State :=
  (List.range (packedRows h)).foldl
    (fun t b => (List.range w).foldl (State.blitByte op x y a w b) t) s

/-- R170: the bytes of one row of a row-major image `w` pixels wide, `(w + 7) div 8`. -/
def rowBytes (w : Nat) : Nat := (w + 7) / 8

/-- Source pixel `(xi, yi)` of a row-major image (R170): bit `7 - (xi mod 8)` of byte `A + yi*bw + (xi div 8)`. -/
def rowMajorBit (s : State) (a w xi yi : Nat) : Bool :=
  (s.srcByte (a + yi * rowBytes w + xi / 8)).getLsbD (7 - xi % 8)

/-- The points of the set bits of a row-major image (R171). -/
def slowblitPoints (s : State) (x y : Int) (a w h : Nat) : List Point :=
  (List.range h).flatMap fun yi =>
    ((List.range w).filter fun xi => rowMajorBit s a w xi yi).map fun xi => (x + (xi : Int), y + (yi : Int))

/-- SLOWBLIT (R171). The source check comes before the plot list's (R231). -/
def execSlowblit (op : CombineOp) (x y alo ahi w ht : Word) (s : State) : Result :=
  s.command fun s =>
    if srcOutside s.params (srcAddr alo ahi) (rowBytes (u16 w) * u16 ht) then s.raiseFault .srcRange
    else s.runPlots op (slowblitPoints s (s16 x) (s16 y) (srcAddr alo ahi) (u16 w) (u16 ht))

end Sys2Proof.Machine
end

