-- ==== Sys2Proof/Machine/Line.lean ====
section
/-! DEFINITION. Lines (41_line.md): LINE, HLINE, VLINE, and the run primitives HSpan and Span. -/

namespace Sys2Proof.Machine

/-- The loop of LinePoints (R121): `n` more points from `(x, y)` with the error `err`. -/
def lineLoop (steep : Bool) (dx dy ystep : Int) : Nat → Int → Int → Int → List Point
  | 0, _, _, _ => []
  | n + 1, x, y, err =>
    (if steep then (y, x) else (x, y)) ::
      (if err - dy < 0 then lineLoop steep dx dy ystep n (x + 1) (y + ystep) (err - dy + dx)
       else lineLoop steep dx dy ystep n (x + 1) y (err - dy))

/-- LinePoints (R121) from the left endpoint to the right one: `x0 <= x1`. -/
def lineRight (steep : Bool) (x0 y0 x1 y1 : Int) : List Point :=
  lineLoop steep (x1 - x0) ((y1 - y0).natAbs : Int) (if y0 < y1 then 1 else -1)
    ((x1 - x0).toNat + 1) x0 y0 ((x1 - x0).tdiv 2)

/-- LinePoints (R121) after the steep swap: the endpoints put in x order. -/
def lineOrdered (steep : Bool) (x0 y0 x1 y1 : Int) : List Point :=
  if x0 > x1 then lineRight steep x1 y1 x0 y0 else lineRight steep x0 y0 x1 y1

/-- `LinePoints(x0, y0, x1, y1)` (R121). -/
def linePoints (x0 y0 x1 y1 : Int) : List Point :=
  if (y1 - y0).natAbs > (x1 - x0).natAbs then lineOrdered true y0 x0 y1 x1
  else lineOrdered false x0 y0 x1 y1

/-- LINE (R120). -/
def execLine (op : CombineOp) (x0 y0 x1 y1 : Word) (s : State) : Result :=
  s.command fun s => s.runPlots op (linePoints (s16 x0) (s16 y0) (s16 x1) (s16 y1))

/-- The points of `HSpan(x, y, w)` (R124): the run clamped to the row's visible part. -/
def hspanPoints (p : Params) (x y w : Int) : List Point :=
  if 0 ≤ y ∧ y < (p.height : Int) then
    (List.range (min (x + w) (p.width : Int) - max x 0).toNat).map fun k => (max x 0 + (k : Int), y)
  else []

/-- HLINE (R124). -/
def execHline (op : CombineOp) (x y w : Word) (s : State) : Result :=
  s.command fun s => (s.plotAll op (hspanPoints s.params (s16 x) (s16 y) (u16 w))).respond 0

/-- The points of `Span(x, y, h)` (R126): the run clamped to the column's visible part; `h` may be zero or negative. -/
def spanPoints (p : Params) (x y h : Int) : List Point :=
  if 0 ≤ x ∧ x < (p.width : Int) then
    (List.range (min (y + h) (p.height : Int) - max y 0).toNat).map fun k => (x, max y 0 + (k : Int))
  else []

/-- VLINE (R126). -/
def execVline (op : CombineOp) (x y ht : Word) (s : State) : Result :=
  s.command fun s => (s.plotAll op (spanPoints s.params (s16 x) (s16 y) (u16 ht))).respond 0

end Sys2Proof.Machine
end

