-- ==== Sys2Proof/Machine/Circle.lean ====
section
/-! DEFINITION. Circles (42_circle.md): the shared decision-variable walk, CIRCLE, CIRCH, FCIRC, FCIRCH. -/

namespace Sys2Proof.Machine

/-- The loop of MidpointSteps (R141). Each turn adds 1 to `x` and never adds to `y`, so `r` turns are enough from
`x = 0, y = r` (`midpointLoop_fuel` under Laws). -/
def midpointLoop : Nat → Int → Int → Int → Int → Int → List Point
  | 0, _, _, _, _, _ => []
  | n + 1, f, ddx, ddy, x, y =>
    if x < y then
      let y' := if f ≥ 0 then y - 1 else y
      let ddy' := if f ≥ 0 then ddy + 2 else ddy
      let f' := if f ≥ 0 then f + ddy' else f
      (x + 1, y') :: midpointLoop n (f' + (ddx + 2)) (ddx + 2) ddy' (x + 1) y'
    else []

/-- `MidpointSteps(r)` (R141). -/
def midpointSteps (r : Nat) : List Point := midpointLoop r (1 - r) 1 (-2 * r) 0 r

/-- The eight symmetric points of one step (R143). -/
def octantPoints (x0 y0 : Int) (d : Point) : List Point :=
  [(x0 + d.1, y0 + d.2), (x0 - d.1, y0 + d.2), (x0 + d.1, y0 - d.2), (x0 - d.1, y0 - d.2),
   (x0 + d.2, y0 + d.1), (x0 - d.2, y0 + d.1), (x0 + d.2, y0 - d.1), (x0 - d.2, y0 - d.1)]

/-- `CirclePoints(x0, y0, r)` (R143). -/
def circlePoints (x0 y0 : Int) (r : Nat) : List Point :=
  [(x0, y0 + r), (x0, y0 - r), (x0 + r, y0), (x0 - r, y0)]
    ++ (midpointSteps r).flatMap (octantPoints x0 y0)

/-- CIRCLE (R142). -/
def execCircle (op : CombineOp) (x0 y0 : Word) (r : Byte) (s : State) : Result :=
  s.command fun s => s.runPlots op (circlePoints (s16 x0) (s16 y0) (u8 r))

/-- The points of one step in the quadrants the mask selects (R146). -/
def cornerStep (x0 y0 : Int) (mask : BitVec 4) (d : Point) : List Point :=
  (if mask.getLsbD 2 then [(x0 + d.1, y0 + d.2), (x0 + d.2, y0 + d.1)] else [])
    ++ (if mask.getLsbD 1 then [(x0 + d.1, y0 - d.2), (x0 + d.2, y0 - d.1)] else [])
    ++ (if mask.getLsbD 3 then [(x0 - d.2, y0 + d.1), (x0 - d.1, y0 + d.2)] else [])
    ++ (if mask.getLsbD 0 then [(x0 - d.2, y0 - d.1), (x0 - d.1, y0 - d.2)] else [])

/-- `CornerPoints(x0, y0, r, mask)` (R146). -/
def cornerPoints (x0 y0 : Int) (r : Nat) (mask : BitVec 4) : List Point :=
  (midpointSteps r).flatMap (cornerStep x0 y0 mask)

/-- CIRCH (R145). -/
def execCirch (op : CombineOp) (msk : BitVec 4) (x0 y0 : Word) (r : Byte) (s : State) : Result :=
  s.command fun s => s.runPlots op (cornerPoints (s16 x0) (s16 y0) (u8 r) msk)

/-- The spans of one step in the halves the mask selects (R150), as points. -/
def halfStep (p : Params) (x0 y0 : Int) (mask : BitVec 2) (delta : Int) (d : Point) : List Point :=
  (if mask.getLsbD 0 then
      spanPoints p (x0 + d.1) (y0 - d.2) (2 * d.2 + 1 + delta)
        ++ spanPoints p (x0 + d.2) (y0 - d.1) (2 * d.1 + 1 + delta)
    else [])
    ++ (if mask.getLsbD 1 then
      spanPoints p (x0 - d.1) (y0 - d.2) (2 * d.2 + 1 + delta)
        ++ spanPoints p (x0 - d.2) (y0 - d.1) (2 * d.1 + 1 + delta)
    else [])

/-- `HalfSpans(x0, y0, r, mask, delta)` (R150), as points. -/
def halfSpans (p : Params) (x0 y0 : Int) (r : Nat) (mask : BitVec 2) (delta : Int) : List Point :=
  (midpointSteps r).flatMap (halfStep p x0 y0 mask delta)

/-- The spans of FCIRC (R147): the centre column, then both halves with delta 0. -/
def discPoints (p : Params) (x0 y0 : Int) (r : Nat) : List Point :=
  spanPoints p x0 (y0 - r) (2 * r + 1) ++ halfSpans p x0 y0 r 3 0

/-- FCIRC (R147). -/
def execFcirc (op : CombineOp) (x0 y0 : Word) (r : Byte) (s : State) : Result :=
  s.command fun s => (s.plotAll op (discPoints s.params (s16 x0) (s16 y0) (u8 r))).respond 0

/-- FCIRCH (R149). -/
def execFcirch (op : CombineOp) (msk : BitVec 2) (x0 y0 : Word) (r : Byte) (delta : Word) (s : State) : Result :=
  s.command fun s =>
    (s.plotAll op (halfSpans s.params (s16 x0) (s16 y0) (u8 r) msk (s16 delta))).respond 0

end Sys2Proof.Machine
end

