-- ==== Sys2Proof/Machine/Pixel.lean ====
section
/-! DEFINITION. Pixel operations (40_pixel.md): SETPX, GETPX, FILL. -/

namespace Sys2Proof.Machine

/-- SETPX (R101). -/
def execSetpx (op : CombineOp) (x y : Word) (s : State) : Result :=
  s.command fun s => s.runPlots op [(s16 x, s16 y)]

/-- GETPX's out-of-range case (R103): `respond(v)` where v is an unconstrained 32-bit draw. -/
def State.respondDraw (s : State) : State :=
  { s with draws := s.draws + 1 }.respond (Config.getpxDraw s.draws)

/-- GETPX (R103). -/
def execGetpx (x y : Word) (s : State) : Result :=
  s.command fun s =>
    if inRange s.params (s16 x, s16 y) then
      s.respond (if s.pixel (s16 x, s16 y) then 1 else 0)
    else s.respondDraw

/-- The loop of FILL (R105): every byte of the framebuffer, with the mask 0xFF. -/
def State.fillAll (op : CombineOp) (s : State) : State :=
  (List.range s.params.fbBytes).foldl (fun t i => t.combineAt op i 0xFF) s

/-- FILL (R105). -/
def execFill (op : CombineOp) (s : State) : Result :=
  s.command fun s => (s.fillAll op).respond 0

end Sys2Proof.Machine
end

