-- ==== Sys2Proof/Machine/Flags.lean ====
section
/-! DEFINITION. The state bits of 10_state.md R38 and what is written with them: POST_RENDER_PENDING with the frame accounting (R183, R186) and BUSY with the transfer to the sink (R201). FAULTED is written in Ops.lean. -/

namespace Sys2Proof.Machine

/-- `Finalize(now)` (R183): the duration, saturated at 0xFFFF, the count, and POST_RENDER_PENDING cleared. -/
def State.finalize (s : State) (now : Nat) : State :=
  { s with
    lastFrameDuration := BitVec.ofNat 16 (min (now - s.lastFrameStart.toNat) 0xFFFF)
    frameCount := s.frameCount + 1
    postRenderPending := false }

/-- R183: the previous frame is closed when its completion is owed. -/
def State.finalizePending (s : State) (now : Nat) : State :=
  if s.postRenderPending then s.finalize now else s

/-- The sample NEXTFRAME took (R181). -/
def State.withClockLast (s : State) (t : DWord) : State := { s with clockLast := t }

/-- The opening branch of R186: the schedule, the actual start, and POST_RENDER_PENDING set. -/
def State.openWindow (s : State) (now : DWord) (next : Nat) : State :=
  { s with
    nextFrameStart := BitVec.ofNat 32 next
    lastFrameStart := now
    postRenderPending := true }

/-- R201: BUSY set, with the bytes the sink is to take. -/
def State.startTransfer (s : State) (bytes : List Byte) : State :=
  { s with busy := true, sinkLeft := bytes }

/-- R201: BUSY cleared, no byte left. -/
def State.endTransfer (s : State) : State := { s with busy := false, sinkLeft := [] }

/-- The sink has taken the next byte, not the last one. -/
def State.withSinkLeft (s : State) (bytes : List Byte) : State := { s with sinkLeft := bytes }

end Sys2Proof.Machine
end

