-- ==== Sys2Proof/Machine/Present.lean ====
section
/-! DEFINITION. The present-buffer sequencer (45_present.md): PRESENT, and the display sink taking its bytes. -/

namespace Sys2Proof.Machine

/-- R54, R201: the framebuffer as a byte sequence in index order. -/
def State.presentBytes (s : State) : List Byte := (List.range s.params.fbBytes).map s.fbByte

/-- PRESENT (R201) up to its wait: BUSY, and `Present` with a snapshot. It ends in `State.sinkTake`. -/
def execPresent (s : State) : Result :=
  s.command fun s => (s.startTransfer s.presentBytes).emit (.present s.presentBytes)

/-- The sink takes one byte (R200). With the last one PRESENT ends: BUSY cleared, `respond(0)` (R201). With no transfer in
progress there is nothing to take. -/
def State.sinkTake (s : State) : State :=
  if s.busy then
    match s.sinkLeft with
    | [] => s.endTransfer.respond 0
    | [_] => s.endTransfer.respond 0
    | _ :: b :: rest => s.withSinkLeft (b :: rest)
  else s

end Sys2Proof.Machine
end

