-- ==== Sys2Proof/Machine/Scheduler.lean ====
section
/-! DEFINITION. The frame-rate timer (44_scheduler.md): SETFPS, NEXTFRAME, CPULOAD, EVERYX. -/

namespace Sys2Proof.Machine

/-- The rate registers written together (R182). -/
def State.withRate (s : State) (rate : Byte) : State :=
  { s with frameRate := rate, eachFrameMs := BitVec.ofNat 16 (1000 / rate.toNat) }

/-- SETFPS (R182). -/
def execSetfps (rate : Byte) (s : State) : Result :=
  s.command fun s => if rate = 0 then s.raiseError .operandRange else (s.withRate rate).respond 0

/-- `next` of R186: the scheduled start of the window now opening plus the period, or `now` plus the period when that is
already due. -/
def State.nextStart (s : State) (now : Nat) : Nat :=
  if s.nextFrameStart.toNat + s.eachFrameMs.toNat ≤ now then now + s.eachFrameMs.toNat
  else s.nextFrameStart.toNat + s.eachFrameMs.toNat

/-- R184: the idle request, when more than the threshold remains. -/
def State.requestIdle (s : State) (now : Nat) : State :=
  if s.nextFrameStart.toNat - now > s.params.idleThresholdMs then s.emit .idleReq else s

/-- The body of NEXTFRAME (R186): every check comes before any write. -/
def State.nextframe (s : State) : State :=
  let now := s.clock.toNat
  if now < s.clockLast.toNat then s.raiseFault .clockRegression
  else if now < s.nextFrameStart.toNat then
    (((s.withClockLast s.clock).finalizePending now).requestIdle now).respond 0
  else if s.nextStart now > 2 ^ 32 - 1 then s.raiseFault .timeOverflow
  else
    (((s.withClockLast s.clock).finalizePending now).openWindow s.clock (s.nextStart now)).respond 1

/-- NEXTFRAME (R186). -/
def execNextframe (s : State) : Result := s.command State.nextframe

/-- CPULOAD (R190). -/
def execCpuload (s : State) : Result :=
  s.command fun s => s.respond (BitVec.ofNat 32 (s.lastFrameDuration.toNat * 100 / s.eachFrameMs.toNat))

/-- EVERYX (R192). -/
def execEveryx (n : Byte) (s : State) : Result :=
  s.command fun s =>
    if n = 0 then s.raiseError .operandRange
    else s.respond (if s.frameCount.toNat % n.toNat = 0 then 1 else 0)

end Sys2Proof.Machine
end

