-- ==== Sys2Proof/Machine/Dispatch.lean ====
section
/-! DEFINITION. One arm per constructor of Instr, each one direct call of its meaning. -/

namespace Sys2Proof.Machine

def exec (i : Instr) (s : State) : Host.Outcome State Fault Refusal :=
  match i with
  | .setpx op x y => Sys2Proof.Machine.execSetpx op x y s
  | .getpx x y => Sys2Proof.Machine.execGetpx x y s
  | .fill op => Sys2Proof.Machine.execFill op s
  | .line op x0 y0 x1 y1 => Sys2Proof.Machine.execLine op x0 y0 x1 y1 s
  | .hline op x y w => Sys2Proof.Machine.execHline op x y w s
  | .vline op x y ht => Sys2Proof.Machine.execVline op x y ht s
  | .circle op x0 y0 r => Sys2Proof.Machine.execCircle op x0 y0 r s
  | .circh op msk x0 y0 r => Sys2Proof.Machine.execCirch op msk x0 y0 r s
  | .fcirc op x0 y0 r => Sys2Proof.Machine.execFcirc op x0 y0 r s
  | .fcirch op msk x0 y0 r delta => Sys2Proof.Machine.execFcirch op msk x0 y0 r delta s
  | .blit op x y alo ahi w ht => Sys2Proof.Machine.execBlit op x y alo ahi w ht s
  | .slowblit op x y alo ahi w ht => Sys2Proof.Machine.execSlowblit op x y alo ahi w ht s
  | .setfps rate => Sys2Proof.Machine.execSetfps rate s
  | .nextframe => Sys2Proof.Machine.execNextframe s
  | .cpuload => Sys2Proof.Machine.execCpuload s
  | .everyx n => Sys2Proof.Machine.execEveryx n s
  | .present => Sys2Proof.Machine.execPresent s

end Sys2Proof.Machine
end

