-- ==== Sys2Proof/WellFormed.lean ====
section
/-! DEFINITION. Well-formed commands: those whose operands pass the checks of 30_encoding.md R82 that the type of `Instr` does not already make. -/

namespace Sys2Proof

/-- The operand check of R82 on a decoded command: RATE is not 0 (R182), N is not 0 (R192). A reserved colour, mask or
header bit and a U8 word with a nonzero upper byte have no `Instr` at all: `decode` refuses them by name. -/
def Instr.wf : Instr → Bool
  | .setpx _ _ _ => true
  | .getpx _ _ => true
  | .fill _ => true
  | .line _ _ _ _ _ => true
  | .hline _ _ _ _ => true
  | .vline _ _ _ _ => true
  | .circle _ _ _ _ => true
  | .circh _ _ _ _ _ => true
  | .fcirc _ _ _ _ => true
  | .fcirch _ _ _ _ _ _ => true
  | .blit _ _ _ _ _ _ _ => true
  | .slowblit _ _ _ _ _ _ _ => true
  | .setfps rate => rate != 0
  | .nextframe => true
  | .cpuload => true
  | .everyx n => n != 0
  | .present => true

end Sys2Proof
end

