-- ==== Sys2Proof/Decode.lean ====
section
/-! DEFINITION. The command encoding (30_encoding.md): the opcode map of R78, header fields of R72, the decoder, total on any list of words, and the encoder. -/

namespace Sys2Proof

/-- The rows of the opcode map (R78). -/
inductive Opcode where
  | setpx | getpx | fill | line | hline | vline | circle | circh | fcirc | fcirch
  | blit | slowblit | setfps | nextframe | cpuload | everyx | present
  deriving DecidableEq, Repr

/-- R78, column OPC. -/
def Opcode.code : Opcode → BitVec 8
  | .setpx => 0x01
  | .getpx => 0x02
  | .fill => 0x03
  | .line => 0x10
  | .hline => 0x11
  | .vline => 0x12
  | .circle => 0x18
  | .circh => 0x19
  | .fcirc => 0x1A
  | .fcirch => 0x1B
  | .blit => 0x20
  | .slowblit => 0x21
  | .setfps => 0x30
  | .nextframe => 0x31
  | .cpuload => 0x32
  | .everyx => 0x33
  | .present => 0x38

/-- R78, column "words": the total length, header included. -/
def Opcode.words : Opcode → Nat
  | .setpx | .getpx => 3
  | .fill => 1
  | .line => 5
  | .hline | .vline => 4
  | .circle | .circh | .fcirc => 4
  | .fcirch => 5
  | .blit | .slowblit => 7
  | .setfps | .everyx => 2
  | .nextframe | .cpuload | .present => 1

/-- R78, column COL: whether the command takes a combine operator. -/
def Opcode.takesColour : Opcode → Bool
  | .setpx | .fill | .line | .hline | .vline | .circle | .circh | .fcirc | .fcirch | .blit | .slowblit => true
  | .getpx | .setfps | .nextframe | .cpuload | .everyx | .present => false

/-- R76, R78 column MSK: the bits of the MSK field the command may set. -/
def Opcode.maskBits : Opcode → BitVec 4
  | .circh => 0b1111
  | .fcirch => 0b0011
  | .setpx | .getpx | .fill | .line | .hline | .vline | .circle | .fcirc | .blit | .slowblit => 0
  | .setfps | .nextframe | .cpuload | .everyx | .present => 0

/-- The row an `OPC` byte is assigned to; none for the illegal values of R80. -/
def opcodeOf (b : BitVec 8) : Option Opcode :=
  match b.toNat with
  | 0x01 => some .setpx
  | 0x02 => some .getpx
  | 0x03 => some .fill
  | 0x10 => some .line
  | 0x11 => some .hline
  | 0x12 => some .vline
  | 0x18 => some .circle
  | 0x19 => some .circh
  | 0x1A => some .fcirc
  | 0x1B => some .fcirch
  | 0x20 => some .blit
  | 0x21 => some .slowblit
  | 0x30 => some .setfps
  | 0x31 => some .nextframe
  | 0x32 => some .cpuload
  | 0x33 => some .everyx
  | 0x38 => some .present
  | _ => none

/-- `OPC = HDR[7:0]` (R72). -/
def hdrOpc (h : Word) : BitVec 8 := h.extractLsb' 0 8

/-- `COL = HDR[9:8]` (R72). -/
def hdrCol (h : Word) : BitVec 2 := h.extractLsb' 8 2

/-- `MSK = HDR[13:10]` (R72). -/
def hdrMsk (h : Word) : BitVec 4 := h.extractLsb' 10 4

/-- `RSV = HDR[15:14]` (R72). -/
def hdrRsv (h : Word) : BitVec 2 := h.extractLsb' 14 2

/-- Why words are not a command: too few of them so far, or one of the refusals of R83, by name. -/
inductive Reject where
  /-- Fewer words than the header's opcode needs (R71): the command is still being assembled. -/
  | incomplete
  /-- R80. -/
  | illegalOpcode
  /-- R75 to R77. -/
  | reservedField
  /-- R82. -/
  | operandRange
  deriving DecidableEq, Repr

/-- R75 to R77, R223: RSV is 0, COL is a colour where the command takes one and 0 where it takes none, and MSK has no bit
set outside the mask the command takes. -/
def headerAllowed (o : Opcode) (h : Word) : Bool :=
  hdrRsv h == 0
    && (if o.takesColour then hdrCol h != 3 else hdrCol h == 0)
    && (hdrMsk h &&& ~~~ o.maskBits) == 0

/-- R75: the operator of a COL value. `headerAllowed` has refused 3. -/
def colourOf (c : BitVec 2) : CombineOp :=
  if c = 0 then .clear else if c = 1 then .set else .invert

/-- R73, R82: a U8 operand is the low byte of its word, whose upper byte must be 0. -/
def operandU8 (w : Word) : Option Byte :=
  if w.extractLsb' 8 8 = 0 then some (w.extractLsb' 0 8) else none

/-- The operand words of R78, row by row, after the header has passed. RATE and N of 0 are left to the commands
themselves, which end with `Error(OPERAND_RANGE)` (R182, R192). -/
def decodeOperands (o : Opcode) (h : Word) (ws : List Word) : Except Reject (Instr × List Word) :=
  let op := colourOf (hdrCol h)
  match o with
  | .setpx =>
    match ws with
    | x :: y :: rest => .ok (.setpx op x y, rest)
    | _ => .error .incomplete
  | .getpx =>
    match ws with
    | x :: y :: rest => .ok (.getpx x y, rest)
    | _ => .error .incomplete
  | .fill => .ok (.fill op, ws)
  | .line =>
    match ws with
    | x0 :: y0 :: x1 :: y1 :: rest => .ok (.line op x0 y0 x1 y1, rest)
    | _ => .error .incomplete
  | .hline =>
    match ws with
    | x :: y :: w :: rest => .ok (.hline op x y w, rest)
    | _ => .error .incomplete
  | .vline =>
    match ws with
    | x :: y :: ht :: rest => .ok (.vline op x y ht, rest)
    | _ => .error .incomplete
  | .circle =>
    match ws with
    | x0 :: y0 :: rw :: rest =>
      match operandU8 rw with
      | some r => .ok (.circle op x0 y0 r, rest)
      | none => .error .operandRange
    | _ => .error .incomplete
  | .circh =>
    match ws with
    | x0 :: y0 :: rw :: rest =>
      match operandU8 rw with
      | some r => .ok (.circh op (hdrMsk h) x0 y0 r, rest)
      | none => .error .operandRange
    | _ => .error .incomplete
  | .fcirc =>
    match ws with
    | x0 :: y0 :: rw :: rest =>
      match operandU8 rw with
      | some r => .ok (.fcirc op x0 y0 r, rest)
      | none => .error .operandRange
    | _ => .error .incomplete
  | .fcirch =>
    match ws with
    | x0 :: y0 :: rw :: delta :: rest =>
      match operandU8 rw with
      | some r => .ok (.fcirch op ((hdrMsk h).extractLsb' 0 2) x0 y0 r delta, rest)
      | none => .error .operandRange
    | _ => .error .incomplete
  | .blit =>
    match ws with
    | x :: y :: alo :: ahi :: w :: ht :: rest => .ok (.blit op x y alo ahi w ht, rest)
    | _ => .error .incomplete
  | .slowblit =>
    match ws with
    | x :: y :: alo :: ahi :: w :: ht :: rest => .ok (.slowblit op x y alo ahi w ht, rest)
    | _ => .error .incomplete
  | .setfps =>
    match ws with
    | rw :: rest =>
      match operandU8 rw with
      | some rate => .ok (.setfps rate, rest)
      | none => .error .operandRange
    | _ => .error .incomplete
  | .nextframe => .ok (.nextframe, ws)
  | .cpuload => .ok (.cpuload, ws)
  | .everyx =>
    match ws with
    | nw :: rest =>
      match operandU8 nw with
      | some n => .ok (.everyx n, rest)
      | none => .error .operandRange
    | _ => .error .incomplete
  | .present => .ok (.present, ws)

/-- R84: the header word, its row, then as many words as the row says; R83: the order of the checks. The answer is the
command and the words after it. -/
def decode : List Word → Except Reject (Instr × List Word)
  | [] => .error .incomplete
  | h :: ws =>
    match opcodeOf (hdrOpc h) with
    | none => .error .illegalOpcode
    | some o =>
      if ws.length + 1 < o.words then .error .incomplete
      else if headerAllowed o h then decodeOperands o h ws
      else .error .reservedField

/-- R75: the COL value of an operator. -/
def CombineOp.col : CombineOp → BitVec 2
  | .clear => 0
  | .set => 1
  | .invert => 2

/-- R72: a header word `RR MMMM CC OOOOOOOO` with RR = 0. -/
def encodeHeader (o : Opcode) (col : BitVec 2) (msk : BitVec 4) : Word :=
  (msk.setWidth 16 <<< 10) ||| (col.setWidth 16 <<< 8) ||| o.code.setWidth 16

/-- R73: a U8 operand's word. -/
def encodeU8 (b : Byte) : Word := b.setWidth 16

/-- The words of a command, written from the tables of R78 and R79. -/
def encode : Instr → List Word
  | .setpx op x y => [encodeHeader .setpx op.col 0, x, y]
  | .getpx x y => [encodeHeader .getpx 0 0, x, y]
  | .fill op => [encodeHeader .fill op.col 0]
  | .line op x0 y0 x1 y1 => [encodeHeader .line op.col 0, x0, y0, x1, y1]
  | .hline op x y w => [encodeHeader .hline op.col 0, x, y, w]
  | .vline op x y ht => [encodeHeader .vline op.col 0, x, y, ht]
  | .circle op x0 y0 r => [encodeHeader .circle op.col 0, x0, y0, encodeU8 r]
  | .circh op msk x0 y0 r => [encodeHeader .circh op.col msk, x0, y0, encodeU8 r]
  | .fcirc op x0 y0 r => [encodeHeader .fcirc op.col 0, x0, y0, encodeU8 r]
  | .fcirch op msk x0 y0 r delta =>
    [encodeHeader .fcirch op.col (msk.setWidth 4), x0, y0, encodeU8 r, delta]
  | .blit op x y alo ahi w ht => [encodeHeader .blit op.col 0, x, y, alo, ahi, w, ht]
  | .slowblit op x y alo ahi w ht => [encodeHeader .slowblit op.col 0, x, y, alo, ahi, w, ht]
  | .setfps rate => [encodeHeader .setfps 0 0, encodeU8 rate]
  | .nextframe => [encodeHeader .nextframe 0 0]
  | .cpuload => [encodeHeader .cpuload 0 0]
  | .everyx n => [encodeHeader .everyx 0 0, encodeU8 n]
  | .present => [encodeHeader .present 0 0]

/-- The number of words of the longest command (BLIT and SLOWBLIT, R78). -/
def maxCommandWords : Nat := 7

/-- R84: the length in words of the command a header word begins; an illegal opcode has length 1. -/
def commandLength (h : Word) : Nat :=
  match opcodeOf (hdrOpc h) with
  | some o => o.words
  | none => 1

/-- A number whose bit 0 is the least significant bit of the first command word, cut into the seven words of the longest
command; bits from `nbits` on are 0. -/
def wordsOfTable (nbits w : Nat) : List Word :=
  (List.range maxCommandWords).map fun k => BitVec.ofNat 16 ((w % 2 ^ nbits) >>> (16 * k))

/-- The command the decoder reads from a number laid out as spec/opcode_table.json numbers bits. -/
def decodeTableWord (nbits w : Nat) : Option Instr :=
  match decode (wordsOfTable nbits w) with
  | .ok (i, _) => some i
  | .error _ => none

end Sys2Proof
end

