-- ==== Sys2Proof/Machine/Port.lean ====
section
/-! DEFINITION. The block's inputs: which act of an outside agent comes next, command assembly (30_encoding.md R71), and what the acts that carry no word do. -/

namespace Sys2Proof.Machine

/-- The acts a BUSY block holds back: a host write waits until PRESENT has responded (R202), and the asset memory does not
change while a command executes (R56). The clock, the sink and reset do not wait (DEDUCED, safe: log entry 11). -/
def Input.heldBack : Input → Bool
  | .word _ => true
  | .asset _ _ => true
  | .clock _ => false
  | .sinkTake => false
  | .reset => false

/-- The next act that can happen, and the acts that remain, in their order. Only BUSY holds an act back: an asset write that
comes between the words of a half-sent command lands there, since no command executes before its last word (DESIGN CHOICE,
safe: log entry 23). -/
def nextInput (busy : Bool) : List Input → Option (Input × List Input)
  | [] => none
  | i :: rest =>
    if busy && i.heldBack then
      match nextInput busy rest with
      | some (j, more) => some (j, i :: more)
      | none => none
    else some (i, rest)

/-- The state with other acts to come. -/
def State.withInputs (s : State) (is : List Input) : State := { s with inputs := is }

/-- The state with another command assembler content. -/
def State.withCmdBuf (s : State) (ws : List Word) : State := { s with cmdBuf := ws }

/-- What a word written to the port leads to (R71). -/
inductive Assembled where
  /-- The command still lacks words. -/
  | waiting (s : State)
  /-- The command is complete and refused by name. -/
  | refused (s : State) (st : Status)
  /-- The command is complete and runs. -/
  | run (s : State) (i : Instr)

/-- R71: the word joins CMD_BUF; a complete command leaves CMD_BUF empty. -/
def State.assemble (s : State) (w : Word) : Assembled :=
  match decode (s.cmdBuf ++ [w]) with
  | .ok (i, _) => .run (s.withCmdBuf []) i
  | .error .incomplete => .waiting (s.withCmdBuf (s.cmdBuf ++ [w]))
  | .error .illegalOpcode => .refused (s.withCmdBuf []) .illegalOpcode
  | .error .reservedField => .refused (s.withCmdBuf []) .reservedField
  | .error .operandRange => .refused (s.withCmdBuf []) .operandRange

/-- R56: the host changes a byte of the asset memory; there is no byte at or past SRC_SIZE. -/
def State.assetWrite (s : State) (a : DWord) (b : Byte) : State :=
  if a.toNat < s.params.srcSize then { s with src := s.src.write a.toNat b } else s

/-- The clock input moves (R180); the block does not notice until it samples it. -/
def State.withClock (s : State) (t : DWord) : State := { s with clock := t }

/-- A command's words laid where the port takes its next word: all but the last in CMD_BUF, the last as the host's next
write, and the port free to take it. -/
def State.offerCommand (s : State) (ws : List Word) : State :=
  { s with
    cmdBuf := ws.dropLast
    inputs := (ws.drop (ws.length - 1)).map Input.word ++ s.inputs
    busy := false
    sinkLeft := [] }

end Sys2Proof.Machine
end

