-- ==== Sys2Proof/Machine/Step.lean ====
section
/-! DEFINITION. One step: the next act of an outside agent that can happen, happens. A word that completes a command runs it (20_memory.md R60: one command at a time, each atomic). -/

namespace Sys2Proof.Machine

/-- One step. With no act that can happen the block holds its state (R35, R204, R238). -/
def step (s : State) : Host.Outcome State Fault Refusal :=
  match nextInput s.busy s.inputs with
  | none => .next s
  | some (.word w, rest) =>
    match (s.withInputs rest).assemble w with
    | .waiting t => .next t
    | .refused t st => .next (t.refuse st)
    | .run t i => exec i t
  | some (.clock t, rest) => .next ((s.withInputs rest).withClock t)
  | some (.asset a b, rest) => .next ((s.withInputs rest).assetWrite a b)
  | some (.sinkTake, rest) => .next (s.withInputs rest).sinkTake
  | some (.reset, rest) => .next (s.withInputs rest).resetBlock

/-- The command of an opcode-table number (bits from `nbits` on are 0) laid where the very next step completes and runs it
(log entry 9). -/
def State.withFetchWord (s : State) (nbits w : Nat) : State :=
  s.offerCommand
    ((wordsOfTable nbits w).take (commandLength ((wordsOfTable nbits w).headD 0)))

end Sys2Proof.Machine
end

