-- ==== Sys2Proof/Safety.lean ====
section
/-! DEFINITION. What counts as a safe run, the invariant of the block, and the words the statements are made of: drawing a pixel some number of times, a sequence of commands, and the openings of a sequence of frame queries. -/

namespace Sys2Proof.Machine

/-- R226: "the block's faulted state is never a good end state". -/
abbrev State.Safe (s : State) : Prop := s.faulted = false

/-- A run of `n` steps is safe when the block is in the fault state after none of them. -/
def SafeRun (n : Nat) (s : State) : Prop :=
  ∀ k ≤ n, ∃ t, Sys2Proof.core.run k s = .next t ∧ State.Safe t

/-- CMD_BUF holds a command that still lacks words: it is empty, or its header is assigned and words are missing (R35, R71). -/
def partialCommand : List Word → Prop
  | [] => True
  | h :: ws => ∃ o, opcodeOf (hdrOpc h) = some o ∧ ws.length + 1 < o.words

/-- What every step keeps. -/
structure State.Inv (s : State) : Prop where
  /-- R6, R9. -/
  params_legal : s.params.Legal
  /-- The listings are canonical and inside their spaces (R50, R59). -/
  fb_wf : s.fb.wf
  fb_below : s.fb.below s.params.fbBytes
  src_wf : s.src.wf
  src_below : s.src.below s.params.srcSize
  /-- R26: "the register never holds 0". -/
  rate_pos : 1 ≤ s.frameRate.toNat
  /-- R27: "The invariant `EACH_FRAME_MS = 1000 div FRAME_RATE` holds in every state". -/
  each_eq : s.eachFrameMs.toNat = 1000 / s.frameRate.toNat
  /-- R183: "`CLOCK_LAST >= LAST_FRAME_START` always holds". -/
  start_le_clock : s.lastFrameStart.toNat ≤ s.clockLast.toNat
  /-- R31: the flag is true only between an opening and the next query, so the last sample is the opening's. -/
  pending_start : s.postRenderPending = true → s.lastFrameStart = s.clockLast
  /-- R188: "an opening always sets NEXT_FRAME_START > now". -/
  next_after_start :
    s.lastFrameStart.toNat < s.nextFrameStart.toNat ∨
      (s.lastFrameStart = 0 ∧ s.nextFrameStart = 0 ∧ s.postRenderPending = false)
  /-- R220: "Codes `0x05` to `0xFF` are never produced". -/
  status_code : s.respStatus.toNat ≤ 4
  /-- R225: a cause 1 to 4 in the fault state, "`FAULT_CAUSE = 0x00` means no fault". -/
  fault_cause : if s.faulted then 1 ≤ s.faultCause.toNat ∧ s.faultCause.toNat ≤ 4 else s.faultCause = 0
  /-- R35, R71. -/
  cmdBuf_partial : partialCommand s.cmdBuf
  /-- R36, R201: BUSY stands exactly while the sink has bytes to take. -/
  busy_iff_left : s.busy = true ↔ s.sinkLeft ≠ []
  /-- R202, R230: a PRESENT in progress is the one command in execution, of a block that is not faulted. -/
  busy_alone : s.busy = true → s.cmdBuf = [] ∧ s.faulted = false
  /-- R203: the bytes still to be sent are the buffer's. -/
  left_suffix : s.sinkLeft <:+ s.presentBytes
  /-- The model's own: a later free draw is a new one. -/
  epoch_lt : s.fbEpoch < s.draws

/-- R13: a pixel after `n` plots of it under one operator. "Under `Set` and `Clear`, a point that occurs once or many times
has the same effect. Under `Invert`, a point flips if it occurs an odd number of times". -/
def overdraw (op : CombineOp) (n : Nat) (b : Bool) : Bool :=
  match op with
  | .set => b || decide (0 < n)
  | .clear => b && !decide (0 < n)
  | .invert => b ^^ decide (n % 2 = 1)

/-- A sequence of commands, each run on the state the one before left (R60). -/
def execAll : List Instr → State → Result
  | [], s => .next s
  | i :: is, s =>
    match exec i s with
    | .next t => execAll is t
    | .fault f => .fault f
    | .refused r => .refused r

/-- The clock samples at which a sequence of NEXTFRAMEs, sent at these clock values, opens a window (R186: result 1 with
status OK), in order. -/
def openings : List DWord → State → List Nat
  | [], _ => []
  | c :: cs, s =>
    match exec .nextframe (s.withClock c) with
    | .next t =>
      if t.respStatus = 0 ∧ t.respResult = 1 then c.toNat :: openings cs t else openings cs t
    | .fault _ => []
    | .refused _ => []

end Sys2Proof.Machine
end

