-- ==== Sys2Proof/Certificates/Slice0/Obligations.lean ====
section
/-! DEFINITION. The statements for the provers. Each docstring names the rules a statement formalises. The definitions before them are words of the statements, written from the spec's tables and not from the model's meanings. -/

open Sys2Proof Sys2Proof.Machine

namespace Sys2Proof.Statements

/-- The next word the host writes is taken (the block is not BUSY) and CMD_BUF with it is `ws`; `rest` is what the agents
outside do after it. -/
def NextWordGives (s : State) (ws : List Word) (rest : List Input) : Prop :=
  s.busy = false ∧ ∃ w, s.inputs = .word w :: rest ∧ s.cmdBuf ++ [w] = ws

/-- The state a complete command runs on: the word is taken and CMD_BUF is empty (R71). -/
def taken (s : State) (rest : List Input) : State := { s with inputs := rest, cmdBuf := [] }

/-- R79: the match and the mask of a header word. -/
def headerPattern : Opcode → Word × Word
  | .setpx => (0x0001, 0xFCFF)
  | .getpx => (0x0002, 0xFFFF)
  | .fill => (0x0003, 0xFCFF)
  | .line => (0x0010, 0xFCFF)
  | .hline => (0x0011, 0xFCFF)
  | .vline => (0x0012, 0xFCFF)
  | .circle => (0x0018, 0xFCFF)
  | .circh => (0x0019, 0xC0FF)
  | .fcirc => (0x001A, 0xFCFF)
  | .fcirch => (0x001B, 0xF0FF)
  | .blit => (0x0020, 0xFCFF)
  | .slowblit => (0x0021, 0xFCFF)
  | .setfps => (0x0030, 0xFFFF)
  | .nextframe => (0x0031, 0xFFFF)
  | .cpuload => (0x0032, 0xFFFF)
  | .everyx => (0x0033, 0xFFFF)
  | .present => (0x0038, 0xFFFF)

/-- R79: "A header matches a command when `(HDR & mask) == match`, provided `cc != 11`." -/
def headerMatches (o : Opcode) (h : Word) : Prop :=
  h &&& (headerPattern o).2 = (headerPattern o).1 ∧ h.extractLsb' 8 2 ≠ 0b11

/-- R78: the place of a command's U8 operand among its operand words. -/
def u8Place : Opcode → Option Nat
  | .circle | .circh | .fcirc | .fcirch => some 2
  | .setfps | .everyx => some 0
  | .setpx | .getpx | .fill | .line | .hline | .vline | .blit | .slowblit => none
  | .nextframe | .cpuload | .present => none

/-- R225: the causes a command can raise, by the table's column "raised by". -/
def causesOf : Instr → List (BitVec 8)
  | .setpx _ _ _ | .line _ _ _ _ _ | .circle _ _ _ _ | .circh _ _ _ _ _ => [0x01]
  | .slowblit _ _ _ _ _ _ _ => [0x01, 0x02]
  | .blit _ _ _ _ _ _ _ => [0x02]
  | .nextframe => [0x03, 0x04]
  | .getpx _ _ | .fill _ | .hline _ _ _ _ | .vline _ _ _ _ => []
  | .fcirc _ _ _ _ | .fcirch _ _ _ _ _ _ => []
  | .setfps _ | .cpuload | .everyx _ | .present => []

/-- R23: the commands that write FB. -/
def writesFb : Instr → Bool
  | .setpx _ _ _ | .fill _ | .line _ _ _ _ _ | .hline _ _ _ _ | .vline _ _ _ _ => true
  | .circle _ _ _ _ | .circh _ _ _ _ _ | .fcirc _ _ _ _ | .fcirch _ _ _ _ _ _ => true
  | .blit _ _ _ _ _ _ _ | .slowblit _ _ _ _ _ _ _ => true
  | .getpx _ _ | .setfps _ | .nextframe | .cpuload | .everyx _ | .present => false

/-- R2, R4: the commands of the frame scheduler. -/
def isScheduler : Instr → Bool
  | .setfps _ | .nextframe | .cpuload | .everyx _ => true
  | .setpx _ _ _ | .getpx _ _ | .fill _ | .line _ _ _ _ _ | .hline _ _ _ _ | .vline _ _ _ _ => false
  | .circle _ _ _ _ | .circh _ _ _ _ _ | .fcirc _ _ _ _ | .fcirch _ _ _ _ _ _ => false
  | .blit _ _ _ _ _ _ _ | .slowblit _ _ _ _ _ _ _ | .present => false

/-- The scheduler registers of R25 and R33. -/
structure Sched where
  frameRate : BitVec 8
  eachFrameMs : BitVec 16
  frameCount : BitVec Config.frameCountW
  lastFrameStart : BitVec 32
  nextFrameStart : BitVec 32
  lastFrameDuration : BitVec 16
  postRenderPending : Bool
  clockLast : BitVec 32

/-- A state with other scheduler registers. -/
def withSched (s : State) (r : Sched) : State :=
  { s with
    frameRate := r.frameRate
    eachFrameMs := r.eachFrameMs
    frameCount := r.frameCount
    lastFrameStart := r.lastFrameStart
    nextFrameStart := r.nextFrameStart
    lastFrameDuration := r.lastFrameDuration
    postRenderPending := r.postRenderPending
    clockLast := r.clockLast }

/-- `t` is `s` after a command that ends with OK and result 0 and draws each in-range pixel `q` exactly `n q` times under one
operator: the pixels, every byte that holds no drawn pixel, and everything else. -/
def Drawn (op : CombineOp) (n : Point → Nat) (s t : State) : Prop :=
  t = { s with fb := t.fb, respStatus := 0x00, respResult := 0 } ∧
    (∀ q, inRange s.params q = true → t.pixel q = overdraw op (n q) (s.pixel q)) ∧
    (∀ i, (∀ q, inRange s.params q = true → 0 < n q → byteIndex s.params q ≠ i) → t.fbByte i = s.fbByte i)

/-- `s` after a command that raises the fault of code `c` (R226). -/
def faultedWith (s : State) (c : BitVec 8) : State :=
  { s with faulted := true, faultCause := c, respStatus := 0x04, respResult := c.setWidth 32 }

/-- The operator and the plot list of the commands that plot through the pixel primitive with a list known from their
operands: SETPX (R101), LINE (R120), CIRCLE (R142), CIRCH (R145). -/
def plotList : Instr → Option (CombineOp × List Point)
  | .setpx op x y => some (op, [(x.toInt, y.toInt)])
  | .line op x0 y0 x1 y1 => some (op, linePoints x0.toInt y0.toInt x1.toInt y1.toInt)
  | .circle op x0 y0 r => some (op, circlePoints x0.toInt y0.toInt r.toNat)
  | .circh op m x0 y0 r => some (op, cornerPoints x0.toInt y0.toInt r.toNat m)
  | _ => none

/-- The minor coordinate of the `k`-th point of a line from major coordinate `a0`, minor `b0`, to `a1`, `b1` (R121): from the
end with the smaller major coordinate, one minor step each time the error `dx div 2 - k * dy` has fallen below 0 once more,
that is `ystep * ((k * dy + dx - 1 - dx div 2) div dx)` in all. -/
def minorAt (a0 b0 a1 b1 : Int) (k : Nat) : Int :=
  let dx := (a1 - a0).natAbs
  let dy := (b1 - b0).natAbs
  let first := if a0 > a1 then b1 else b0
  let last := if a0 > a1 then b0 else b1
  first + (if first < last then 1 else -1) * (((k * dy + dx - 1 - dx / 2) / dx : Nat) : Int)

/-- How often one step `(x, y)` of the walk plots the offset `e` from the centre in the quadrant of the signs `sx` and `sy`: its
two points there are `(sx*x, sy*y)` and `(sx*y, sy*x)` (R143, R146). -/
def quadrantCount (sx sy : Int) (e d : Point) : Nat :=
  (if e = (sx * d.1, sy * d.2) then 1 else 0) + (if e = (sx * d.2, sy * d.1) then 1 else 0)

/-- How often CIRCLE plots the offset `e` from the centre (R143): once for each axis point it is, and once for each of the
eight symmetric points of each step it is. -/
def circleCount (r : Nat) (e : Point) : Nat :=
  (if e = (0, (r : Int)) then 1 else 0) + (if e = (0, -(r : Int)) then 1 else 0)
    + (if e = ((r : Int), 0) then 1 else 0) + (if e = (-(r : Int), 0) then 1 else 0)
    + ((midpointSteps r).map fun d =>
        quadrantCount 1 1 e d + quadrantCount (-1) 1 e d + quadrantCount 1 (-1) e d + quadrantCount (-1) (-1) e d).sum

/-- How often CIRCH plots the offset `e` from the centre (R146): the mask's bit 0 selects the upper left quadrant, bit 1 the
upper right, bit 2 the lower right, bit 3 the lower left; "upper" is the smaller `y`. -/
def cornerCount (r : Nat) (m : BitVec 4) (e : Point) : Nat :=
  ((midpointSteps r).map fun d =>
    (if m.getLsbD 0 then quadrantCount (-1) (-1) e d else 0) + (if m.getLsbD 1 then quadrantCount 1 (-1) e d else 0)
      + (if m.getLsbD 2 then quadrantCount 1 1 e d else 0)
      + (if m.getLsbD 3 then quadrantCount (-1) 1 e d else 0)).sum

/-- The decision variable `f` of R141 at the offsets `(x, y)` of the walk of radius `r`, in closed form: it is `1 - r` at
`(0, r)`, a step of `y` adds `-2*y + 2` to it and a step of `x` adds `2*x + 3`. -/
def decisionAt (r : Nat) (d : Point) : Int :=
  (d.1 + 1) * (d.1 + 1) + d.2 * d.2 - d.2 - (r : Int) * (r : Int)

/-- `Span(x, y, h)` of R126 covers a point: column `x`, rows `y` to `y + h - 1`. -/
def covers (q : Point) (sp : Int × Int × Int) : Bool :=
  decide (q.1 = sp.1 ∧ sp.2.1 ≤ q.2 ∧ q.2 < sp.2.1 + sp.2.2)

/-- The spans `(x, y, h)` of `HalfSpans` (R150), in its order. -/
def halfSpanList (x0 y0 : Int) (r : Nat) (mask : BitVec 2) (delta : Int) : List (Int × Int × Int) :=
  (midpointSteps r).flatMap fun d =>
    (if mask.getLsbD 0 then
        [(x0 + d.1, y0 - d.2, 2 * d.2 + 1 + delta), (x0 + d.2, y0 - d.1, 2 * d.1 + 1 + delta)] else [])
      ++ (if mask.getLsbD 1 then
        [(x0 - d.1, y0 - d.2, 2 * d.2 + 1 + delta), (x0 - d.2, y0 - d.1, 2 * d.1 + 1 + delta)] else [])

/-- R160: pixel `(i, j)` of a packed image `w` wide at `a`: bit `j mod 8` of byte `a + (j div 8) * w + i`. -/
def packedBit (s : State) (a w i j : Nat) : Bool := (s.srcByte (a + j / 8 * w + i)).getLsbD (j % 8)

/-- R170: pixel `(i, j)` of a row-major image `w` wide at `a`: bit `7 - (i mod 8)` of byte `a + j*bw + (i div 8)`. -/
def rowBit (s : State) (a w i j : Nat) : Bool :=
  (s.srcByte (a + j * ((w + 7) / 8) + i / 8)).getLsbD (7 - i % 8)

/-- R74: the 32-bit source address. -/
def address (alo ahi : Word) : Nat := ahi.toNat * 65536 + alo.toNat

/-- R55, R161: the extent of `ext` bytes at `a` lies in the asset memory, or is empty. -/
def extentInside (s : State) (a ext : Nat) : Prop := ext = 0 ∨ a + ext ≤ s.params.srcSize

/-- How often BLIT draws a point: once where a set source bit lands (R161, R164), padding rows included (R163). -/
def blitCount (s : State) (x y : Int) (a w h : Nat) (q : Point) : Nat :=
  if x ≤ q.1 ∧ q.1 < x + (w : Int) ∧ y ≤ q.2 ∧ q.2 < y + 8 * (((h + 7) / 8 : Nat) : Int) ∧
      packedBit s a w (q.1 - x).toNat (q.2 - y).toNat = true then 1 else 0

/-- How often SLOWBLIT draws a point: once where a set source bit lands (R171). -/
def slowblitCount (s : State) (x y : Int) (a w h : Nat) (q : Point) : Nat :=
  if x ≤ q.1 ∧ q.1 < x + (w : Int) ∧ y ≤ q.2 ∧ q.2 < y + (h : Int) ∧
      rowBit s a w (q.1 - x).toNat (q.2 - y).toNat = true then 1 else 0

/-- FRAME_COUNT after NEXTFRAME's finalize step, if one is owed (R183). -/
def finalCount (s : State) : BitVec Config.frameCountW :=
  if s.postRenderPending then s.frameCount + 1 else s.frameCount

/-- LAST_FRAME_DURATION after NEXTFRAME's finalize step, if one is owed (R183). -/
def finalDuration (s : State) : BitVec 16 :=
  if s.postRenderPending then BitVec.ofNat 16 (min (s.clock.toNat - s.lastFrameStart.toNat) 0xFFFF)
  else s.lastFrameDuration

/-- `next` of R186's pseudocode. -/
def nextOf (s : State) : Nat :=
  let cand := s.nextFrameStart.toNat + s.eachFrameMs.toNat
  if cand ≤ s.clock.toNat then s.clock.toNat + s.eachFrameMs.toNat else cand

end Sys2Proof.Statements

open Sys2Proof.Statements

/-! ## Reset, the fault state, validation -/

/-- The registers of State.reset hold the values of R250's table; the framebuffer holds the free draws of the first reset.
Of the parameters, R6 gives all but SRC_SIZE. The clock input 0 and the empty lists at the interfaces are the model's
(log entries 5, 7). -/
def Obligations.ResetHoldsSpecValues : Prop :=
  (∀ i, State.reset.fbByte i = Config.fbDraw 0 i) ∧
    State.reset.frameRate = 60 ∧ State.reset.eachFrameMs = 16 ∧ State.reset.frameCount = 0 ∧
    State.reset.lastFrameStart = 0 ∧ State.reset.nextFrameStart = 0 ∧ State.reset.lastFrameDuration = 0 ∧
    State.reset.postRenderPending = false ∧ State.reset.clockLast = 0 ∧
    State.reset.respStatus = 0x00 ∧ State.reset.respResult = 0 ∧ State.reset.cmdBuf = [] ∧
    State.reset.busy = false ∧ State.reset.faulted = false ∧ State.reset.faultCause = 0x00 ∧
    State.reset.out = [] ∧
    State.reset.params.width = 128 ∧ State.reset.params.height = 64 ∧ State.reset.params.safeMode = true ∧
    State.reset.params.idleThresholdMs = 1 ∧ State.reset.params.fbBytes = 1024

/-- Reset, whenever it arrives, sets every item of R250's table at once (R251): no event, and neither the parameters nor the
asset memory touched. The rest is the model's: the numbered framebuffer draws (log entries 4 and 5), a reset passing the
writes a BUSY block holds back (log entry 11), and the acts still to come, the clock input and the events already emitted
standing through a reset (log entry 8). -/
def Obligations.ResetActRestoresReset : Prop :=
  ∀ (s : State) (held rest : List Input),
    s.inputs = held ++ Input.reset :: rest →
    (if s.busy then ∀ i ∈ held, i.heldBack = true else held = []) →
    ∃ t, step s = .next t ∧
      (∀ i, t.fbByte i = Config.fbDraw s.draws i) ∧ t.draws = s.draws + 1 ∧
      t.frameRate = 60 ∧ t.eachFrameMs = 16 ∧ t.frameCount = 0 ∧
      t.lastFrameStart = 0 ∧ t.nextFrameStart = 0 ∧ t.lastFrameDuration = 0 ∧
      t.postRenderPending = false ∧ t.clockLast = 0 ∧
      t.respStatus = 0x00 ∧ t.respResult = 0 ∧ t.cmdBuf = [] ∧
      t.busy = false ∧ t.sinkLeft = [] ∧ t.faulted = false ∧ t.faultCause = 0x00 ∧
      t.out = s.out ∧ t.params = s.params ∧ t.src = s.src ∧ t.clock = s.clock ∧ t.inputs = held ++ rest

/-- R227: while FAULTED = 1 every complete command, legal or not, ends with FAULTED and the first cause and has no other
effect; commands are still assembled word by word; only reset clears the fault. -/
def Obligations.FaultedBlockAnswersFaulted : Prop :=
  (∀ (s : State) (ws : List Word) (rest : List Input), s.faulted = true → NextWordGives s ws rest →
    (decode ws ≠ .error .incomplete →
      step s = .next { taken s rest with respStatus := 0x04, respResult := s.faultCause.setWidth 32 }) ∧
    (decode ws = .error .incomplete → step s = .next { s with inputs := rest, cmdBuf := ws })) ∧
  (∀ s t : State, s.faulted = true → step s = .next t →
    (t.faulted = true ∧ t.faultCause = s.faultCause) ∨
      ∃ rest, nextInput s.busy s.inputs = some (.reset, rest))

/-- R226: a command that raises a fault writes FAULTED, FAULT_CAUSE and the response, and nothing else: no framebuffer byte,
no scheduler register, no output event. -/
def Obligations.FaultEntryWritesNothingElse : Prop :=
  ∀ (i : Instr) (s t : State), s.faulted = false → exec i s = .next t → t.faulted = true →
    t = faultedWith s t.faultCause

/-- R231 and R225's column "raised by": the cause a command reports is one the table gives it; SLOWBLIT checks SRC_RANGE
before PIXEL_RANGE, NEXTFRAME checks CLOCK_REGRESSION before TIME_OVERFLOW. -/
def Obligations.OneFaultInOrder : Prop :=
  (∀ (i : Instr) (s t : State), s.faulted = false → exec i s = .next t → t.faulted = true →
    t.faultCause ∈ causesOf i) ∧
  (∀ (op : CombineOp) (x y alo ahi w ht : Word) (s : State), s.faulted = false →
    ¬ extentInside s (address alo ahi) ((w.toNat + 7) / 8 * ht.toNat) →
    exec (.slowblit op x y alo ahi w ht) s = .next (faultedWith s 0x02)) ∧
  (∀ s : State, s.faulted = false → s.clock.toNat < s.clockLast.toNat →
    exec .nextframe s = .next (faultedWith s 0x03))

/-- R220: what the response of a command can be. The clause on PRESENT is the model's (log entry 12): `exec` of PRESENT is its
start, with BUSY set and the response of the command before; it responds when the sink has taken the last byte. -/
def Obligations.CommandsEndWithOneStatus : Prop :=
  ∀ (i : Instr) (s t : State), exec i s = .next t →
    (i ≠ .present ∨ s.faulted = true →
      (t.respStatus = 0x00 ∧ t.faulted = false) ∨
      (t.respStatus = 0x03 ∧ t.respResult = 0 ∧ t.faulted = false) ∨
      (t.respStatus = 0x04 ∧ t.respResult = t.faultCause.setWidth 32 ∧ t.faulted = true)) ∧
    (i = .present → s.faulted = false → t.respStatus = s.respStatus ∧ t.respResult = s.respResult ∧ t.busy = true)

/-- R80: exactly the listed OPC values are illegal, and a header with one is a one-word command that ends with
ILLEGAL_OPCODE, result 0 and no other effect; the words after it start the next command. -/
def Obligations.IllegalOpcodeIsOneWord : Prop :=
  ∀ (h : Word) (ws : List Word),
    (decode (h :: ws) = .error .illegalOpcode ↔
      let o := h.toNat % 256
      o = 0x00 ∨ (0x04 ≤ o ∧ o ≤ 0x0F) ∨ (0x13 ≤ o ∧ o ≤ 0x17) ∨ (0x1C ≤ o ∧ o ≤ 0x1F) ∨
        (0x22 ≤ o ∧ o ≤ 0x2F) ∨ (0x34 ≤ o ∧ o ≤ 0x37) ∨ (0x39 ≤ o ∧ o ≤ 0xFF)) ∧
    (decode (h :: ws) = .error .illegalOpcode →
      ∀ (s : State) (rest : List Input), s.faulted = false → NextWordGives s [h] rest →
        step s = .next { taken s rest with respStatus := 0x01, respResult := 0 })

/-- R79, R221: a complete command whose header has an assigned OPC but fails its match, or has cc = 11, ends with
RESERVED_FIELD and nothing else, whatever its operands; one whose header matches is not refused so. -/
def Obligations.ReservedFieldRefused : Prop :=
  ∀ (o : Opcode) (h : Word) (ops : List Word), h.toNat % 256 = o.code.toNat → ops.length + 1 = o.words →
    (headerMatches o h → decode (h :: ops) ≠ .error .reservedField) ∧
    (¬ headerMatches o h →
      ∀ (s : State) (rest : List Input), s.faulted = false → NextWordGives s (h :: ops) rest →
        step s = .next { taken s rest with respStatus := 0x02, respResult := 0 })

/-- R224, R221: a U8 operand with a nonzero upper byte, SETFPS with RATE = 0 and EVERYX with N = 0 end with OPERAND_RANGE and
nothing else; no other operand is refused so (R82). The model's in it: a command whose header matches (R79) and whose U8 word
fits always decodes, a zero RATE or N too, and the meanings of those two commands refuse the zero (log entry 14). -/
def Obligations.OperandRangeRefused : Prop :=
  (∀ (o : Opcode) (h : Word) (ops : List Word),
    h.toNat % 256 = o.code.toNat → headerMatches o h → ops.length + 1 = o.words →
    (∀ k w, u8Place o = some k → ops[k]? = some w → w.toNat < 256) → ∃ i, decode (h :: ops) = .ok (i, [])) ∧
  (∀ (i : Instr) (s t : State), s.faulted = false → i ≠ .present → exec i s = .next t →
    (t.respStatus = 0x03 ↔ i = .setfps 0 ∨ i = .everyx 0)) ∧
  ∀ (s : State) (rest : List Input), s.faulted = false →
    (∀ (o : Opcode) (h : Word) (ops : List Word) (k : Nat) (w : Word),
      h.toNat % 256 = o.code.toNat → headerMatches o h → ops.length + 1 = o.words →
      u8Place o = some k → ops[k]? = some w → 256 ≤ w.toNat → NextWordGives s (h :: ops) rest →
      step s = .next { taken s rest with respStatus := 0x03, respResult := 0 }) ∧
    (NextWordGives s [0x0030, 0x0000] rest →
      step s = .next { taken s rest with respStatus := 0x03, respResult := 0 }) ∧
    (NextWordGives s [0x0033, 0x0000] rest →
      step s = .next { taken s rest with respStatus := 0x03, respResult := 0 })

/-! ## Encoding and the port -/

/-- R71, R271: a header with an assigned opcode waits for its operand words; the words received so far are kept and nothing
else changes. -/
def Obligations.HalfSentCommandWaits : Prop :=
  ∀ (s : State) (o : Opcode) (h : Word) (ops : List Word) (rest : List Input),
    h.toNat % 256 = o.code.toNat → ops.length + 1 < o.words → NextWordGives s (h :: ops) rest →
    step s = .next { s with inputs := rest, cmdBuf := h :: ops }

/-- R71: when the word completes a command the decoder accepts, the step is that command's exec, on the state with the word
taken and CMD_BUF empty. -/
def Obligations.StepRunsDecodedCommand : Prop :=
  ∀ (s : State) (ws tl : List Word) (rest : List Input) (i : Instr),
    NextWordGives s ws rest → decode ws = .ok (i, tl) → step s = exec i (taken s rest)

/-- R71: a host that writes the words of a command to an empty assembler has the command executed with its last word, and
CMD_BUF is empty again: as many steps as words are one exec. -/
def Obligations.HostWritesRunCommand : Prop :=
  ∀ (i : Instr) (s : State) (rest : List Input),
    s.busy = false → s.cmdBuf = [] → s.inputs = (encode i).map Input.word ++ rest →
    Sys2Proof.core.run (encode i).length s = exec i { s with inputs := rest }

/-- R92: the example stream, each command of it and each cut between two of them. -/
def Obligations.ExampleStreamDecodes : Prop :=
  decode [0x0003] = .ok (.fill .clear, []) ∧
    decode [0x0101, 0x0003, 0x000A] = .ok (.setpx .set 3 10, []) ∧
    decode [0x0038] = .ok (.present, []) ∧
    decode [0x0201, 0xFFFF, 0x0046] = .ok (.setpx .invert (BitVec.ofInt 16 (-1)) 70, []) ∧
    decode [0x0003, 0x0101, 0x0003, 0x000A, 0x0038] = .ok (.fill .clear, [0x0101, 0x0003, 0x000A, 0x0038]) ∧
    decode [0x0101, 0x0003, 0x000A, 0x0038] = .ok (.setpx .set 3 10, [0x0038])

/-- Words written out from R72, R73, R78 and R79, one at least of each family. -/
def Obligations.TableWordsDecode : Prop :=
  decode [0x0002, 0x0003, 0x000A] = .ok (.getpx 3 10, []) ∧
    decode [0x0110, 0x0000, 0x0000, 0x0005, 0x0002] = .ok (.line .set 0 0 5 2, []) ∧
    decode [0x0111, 0xFFFD, 0x000A, 0x0008] = .ok (.hline .set 0xFFFD 10 8, []) ∧
    decode [0x0212, 0x0000, 0x0000, 0x0040] = .ok (.vline .invert 0 0 64, []) ∧
    decode [0x0118, 0x000A, 0x000A, 0x0002] = .ok (.circle .set 10 10 2, []) ∧
    decode [0x0919, 0x000A, 0x000A, 0x0005] = .ok (.circh .set 2 10 10 5, []) ∧
    decode [0x021A, 0x000A, 0x000A, 0x0002] = .ok (.fcirc .invert 10 10 2, []) ∧
    decode [0x091B, 0x000A, 0x000A, 0x0003, 0xFFF9] = .ok (.fcirch .set 2 10 10 3 0xFFF9, []) ∧
    decode [0x0120, 0x0004, 0x0003, 0x0010, 0x0001, 0x0002, 0x0011] = .ok (.blit .set 4 3 0x10 1 2 0x11, []) ∧
    decode [0x0021, 0x0004, 0x0003, 0x0010, 0x0001, 0x0002, 0x0011] = .ok (.slowblit .clear 4 3 0x10 1 2 0x11, []) ∧
    decode [0x0030, 0x001E] = .ok (.setfps 30, []) ∧
    decode [0x0031] = .ok (.nextframe, []) ∧
    decode [0x0032] = .ok (.cpuload, []) ∧
    decode [0x0033, 0x0004] = .ok (.everyx 4, [])

/-- R70 to R74, R79: decode of encode is the command itself, with every operand, and the words after it are left. It holds of
every command, well-formed or not. -/
def Obligations.DecodeOfEncode : Prop :=
  ∀ (i : Instr) (rest : List Word), decode (encode i ++ rest) = .ok (i, rest)

/-- R70 to R74, R81: words the decoder accepts are the encoding of the command it gives, so no bit of an accepted word is
ignored. -/
def Obligations.EncodeOfDecode : Prop :=
  ∀ (ws rest : List Word) (i : Instr), decode ws = .ok (i, rest) → ws = encode i ++ rest

/-! ## The whole machine -/

/-- The invariant at reset. -/
def Obligations.InvAtReset : Prop := State.reset.Inv

/-- Every step keeps the invariant of Safety.lean: legal parameters (R6), canonical memories inside their spaces (R50, R59),
R26, R27, R31, R183, R188, R220, R225, R35, R36, R203. -/
def Obligations.StepKeepsInv : Prop := ∀ s t : State, s.Inv → step s = .next t → t.Inv

/-- No step stops: every command has a stated end (R220). A block with nothing to do holds its state (R35, R238); that a step
in which no act can happen shows this is the model's (log entry 10). -/
def Obligations.EveryStepGoesOn : Prop :=
  (∀ s : State, ∃ t, step s = .next t) ∧
    ∀ s : State, nextInput s.busy s.inputs = none → step s = .next s

/-- R23, R25, R33, R36, R37, R56, R59: what each command leaves alone: the parameters, the asset memory, the clock, the host's
writes to come and CMD_BUF always; FB but for the commands of R23, and never outside the buffer; each scheduler register but
for its writers in R25; BUSY but for PRESENT; output events but for NEXTFRAME's IdleReq and PRESENT's Present. -/
def Obligations.CommandsTouchOnlyTheirState : Prop :=
  ∀ (i : Instr) (s t : State), exec i s = .next t →
    t.params = s.params ∧ t.src = s.src ∧ t.clock = s.clock ∧ t.inputs = s.inputs ∧ t.cmdBuf = s.cmdBuf ∧
    t.fbEpoch = s.fbEpoch ∧
    (writesFb i = false → t.fb = s.fb) ∧
    (∀ k, s.params.fbBytes ≤ k → t.fbByte k = s.fbByte k) ∧
    ((∀ r, i ≠ .setfps r) → t.frameRate = s.frameRate ∧ t.eachFrameMs = s.eachFrameMs) ∧
    (i ≠ .nextframe →
      t.frameCount = s.frameCount ∧ t.lastFrameStart = s.lastFrameStart ∧ t.nextFrameStart = s.nextFrameStart ∧
      t.lastFrameDuration = s.lastFrameDuration ∧ t.postRenderPending = s.postRenderPending ∧
      t.clockLast = s.clockLast) ∧
    (i ≠ .present → t.busy = s.busy ∧ t.sinkLeft = s.sinkLeft) ∧
    (t.out = s.out ∨ (i = .nextframe ∧ t.out = s.out ++ [.idleReq]) ∨
      (i = .present ∧ t.out = s.out ++ [.present s.presentBytes])) ∧
    ((∀ x y, i ≠ .getpx x y) → t.draws = s.draws)

/-- R180: "Only NEXTFRAME samples the clock. Every other command is independent of time", and no command writes the clock. -/
def Obligations.OnlyNextframeSamplesClock : Prop :=
  ∀ (i : Instr) (s t : State), exec i s = .next t →
    t.clock = s.clock ∧
    (i ≠ .nextframe → ∀ c : DWord, exec i { s with clock := c } = .next { t with clock := c })

/-- R2: the renderer and the scheduler share nothing but the command port and the fault state: a drawing command or PRESENT
does the same whatever the scheduler registers hold, and a scheduler command the same whatever the framebuffer and the asset
memory hold. -/
def Obligations.RendererAndSchedulerIndependent : Prop :=
  ∀ (i : Instr) (s t : State), exec i s = .next t →
    (isScheduler i = false → ∀ r : Sched, exec i (withSched s r) = .next (withSched t r)) ∧
    (isScheduler i = true → ∀ (fb src : Memory) (e : Nat),
      exec i { s with fb := fb, src := src, fbEpoch := e } = .next { t with fb := fb, src := src, fbEpoch := e })

/-! ## Pixels and plot lists -/

/-- R13: the pixels after a plot list depend only on how often each point occurs: under Set and Clear once or many times is
the same, under Invert an odd number flips and an even number leaves it. The end state, the fault of SAFE_MODE = 0 included,
does not depend on the order. -/
def Obligations.PlotListPixels : Prop :=
  ∀ (op : CombineOp) (s : State) (ps : List Point), s.params.Legal →
    (∀ q, inRange s.params q = true → (s.plotAll op ps).pixel q = overdraw op (ps.count q) (s.pixel q)) ∧
    (∀ qs : List Point, ps.Perm qs →
      (∀ i, (s.runPlots op ps).fbByte i = (s.runPlots op qs).fbByte i) ∧
        s.runPlots op ps = { s.runPlots op qs with fb := (s.runPlots op ps).fb })

/-- SETPX (R101), LINE (R120), CIRCLE (R142), CIRCH (R145) that do not fault: status OK, result 0, every pixel drawn as often
as it stands in the plot list, nothing else changed. -/
def Obligations.PlottingCommandsDraw : Prop :=
  ∀ (i : Instr) (op : CombineOp) (ps : List Point) (s : State),
    plotList i = some (op, ps) → s.faulted = false → s.params.Legal →
    (s.params.safeMode = true ∨ ∀ q ∈ ps, inRange s.params q = true) →
    ∃ t, exec i s = .next t ∧ Drawn op (fun q => ps.count q) s t

/-- R102: under SAFE_MODE = 0, a plot list with any out-of-range point faults with PIXEL_RANGE before any write: SETPX, LINE,
CIRCLE, CIRCH. -/
def Obligations.PlottingCommandsFault : Prop :=
  ∀ (i : Instr) (op : CombineOp) (ps : List Point) (s : State),
    plotList i = some (op, ps) → s.faulted = false → s.params.safeMode = false →
    (∃ q ∈ ps, inRange s.params q = false) →
    exec i s = .next (faultedWith s 0x01)

/-- R100: an in-range SETPX combines one bit of byte `(y div 8) * WIDTH + x` and leaves every other byte; an out-of-range one is
a no-op under SAFE_MODE = 1 and the fault PIXEL_RANGE otherwise. -/
def Obligations.SetpxIsOnePlot : Prop :=
  ∀ (op : CombineOp) (x y : Word) (s : State), s.faulted = false → s.params.Legal →
    (inRange s.params (x.toInt, y.toInt) = true →
      ∃ t, exec (.setpx op x y) s = .next t ∧
        t = { s with fb := t.fb, respStatus := 0x00, respResult := 0 } ∧
        let i := y.toNat / 8 * s.params.width + x.toNat
        t.fbByte i = combine op (s.fbByte i) (1#8 <<< (y.toNat % 8)) ∧ ∀ j, j ≠ i → t.fbByte j = s.fbByte j) ∧
    (inRange s.params (x.toInt, y.toInt) = false →
      exec (.setpx op x y) s = .next
        (if s.params.safeMode then { s with respStatus := 0x00, respResult := 0 } else faultedWith s 0x01))

/-- GETPX (R103): the pixel for an in-range point; OK and an unconstrained draw for any other, whatever SAFE_MODE is. -/
def Obligations.GetpxReadsPixel : Prop :=
  ∀ (x y : Word) (s : State), s.faulted = false →
    (inRange s.params (x.toInt, y.toInt) = true →
      exec (.getpx x y) s = .next
        { s with
          respStatus := 0x00
          respResult := if (s.fbByte (y.toNat / 8 * s.params.width + x.toNat)).getLsbD (y.toNat % 8) then 1 else 0 }) ∧
    (inRange s.params (x.toInt, y.toInt) = false →
      exec (.getpx x y) s = .next
        { s with respStatus := 0x00, respResult := Config.getpxDraw s.draws, draws := s.draws + 1 })

/-- R104: SETPX then GETPX of an in-range point returns the colour, or the complement of the old bit for INV. -/
def Obligations.SetpxThenGetpx : Prop :=
  ∀ (op : CombineOp) (x y : Word) (s : State), s.faulted = false → s.params.Legal →
    inRange s.params (x.toInt, y.toInt) = true →
    ∃ t u, exec (.setpx op x y) s = .next t ∧ exec (.getpx x y) t = .next u ∧ u.respStatus = 0x00 ∧
      u.respResult =
        match op with
        | .set => 1
        | .clear => 0
        | .invert => if s.pixel (x.toInt, y.toInt) then 0 else 1

/-- FILL (R105): every byte 0x00, 0xFF or its complement; status OK; nothing else changed. -/
def Obligations.FillCombinesEveryByte : Prop :=
  ∀ (op : CombineOp) (s : State), s.faulted = false →
    ∃ t, exec (.fill op) s = .next t ∧
      t = { s with fb := t.fb, respStatus := 0x00, respResult := 0 } ∧
      ∀ i, t.fbByte i =
        if i < s.params.fbBytes then
          match op with
          | .clear => 0x00
          | .set => 0xFF
          | .invert => ~~~ s.fbByte i
        else s.fbByte i

/-- R106: after CLEAR, GETPX returns 0 for every in-range point. -/
def Obligations.ClearThenGetpxIsOff : Prop :=
  ∀ (x y : Word) (s : State), s.faulted = false → s.params.Legal → inRange s.params (x.toInt, y.toInt) = true →
    ∃ t u, exec (.fill .clear) s = .next t ∧ exec (.getpx x y) t = .next u ∧
      u.respStatus = 0x00 ∧ u.respResult = 0

/-! ## Lines -/

/-- R122: a line and its reverse plot the same points, and as commands have the same outcome. -/
def Obligations.LineIsUndirected : Prop :=
  (∀ (x0 y0 x1 y1 : Int) (q : Point), q ∈ linePoints x0 y0 x1 y1 ↔ q ∈ linePoints x1 y1 x0 y0) ∧
  (∀ (op : CombineOp) (x0 y0 x1 y1 : Word) (s : State),
    exec (.line op x0 y0 x1 y1) s = exec (.line op x1 y1 x0 y0) s)

/-- R120, R121: a line has max(|dx|, |dy|) + 1 distinct points, one per unit step along the dominant axis, and both endpoints
are among them; the minor coordinate of each point is the one the initial error `dx div 2` and the tie rule `err < 0` give. -/
def Obligations.LinePointsExact : Prop :=
  ∀ x0 y0 x1 y1 : Int,
    let ps := linePoints x0 y0 x1 y1
    let steep := (y1 - y0).natAbs > (x1 - x0).natAbs
    ps.Nodup ∧ ps.length = max (x1 - x0).natAbs (y1 - y0).natAbs + 1 ∧
      (x0, y0) ∈ ps ∧ (x1, y1) ∈ ps ∧
      (¬ steep → ps.map Prod.fst = (List.range ps.length).map (fun k => min x0 x1 + (k : Int)) ∧
        ps.map Prod.snd = (List.range ps.length).map (minorAt x0 y0 x1 y1)) ∧
      (steep → ps.map Prod.snd = (List.range ps.length).map (fun k => min y0 y1 + (k : Int)) ∧
        ps.map Prod.fst = (List.range ps.length).map (minorAt y0 x0 y1 x1))

/-- HLINE (R124) and VLINE (R126), under both values of SAFE_MODE (R128): exactly the visible part of the run, each pixel
once. -/
def Obligations.FastRunsDrawClippedRun : Prop :=
  ∀ (op : CombineOp) (x y n : Word) (s : State), s.faulted = false → s.params.Legal →
    (∃ t, exec (.hline op x y n) s = .next t ∧
      Drawn op (fun q => if q.2 = y.toInt ∧ x.toInt ≤ q.1 ∧ q.1 < x.toInt + (n.toNat : Int) then 1 else 0) s t) ∧
    (∃ t, exec (.vline op x y n) s = .next t ∧
      Drawn op (fun q => if q.1 = x.toInt ∧ y.toInt ≤ q.2 ∧ q.2 < y.toInt + (n.toNat : Int) then 1 else 0) s t)

/-- R125: HLINE has the end state of the SETPX commands along its run. Of the points `X + i` those past 32767 have no SETPX;
they are off-screen. -/
def Obligations.HlineIsSetpxSequence : Prop :=
  ∀ (op : CombineOp) (x y w : Word) (s : State), s.faulted = false → s.params.Legal →
    (s.params.safeMode = true ∨ ∀ k < w.toNat, inRange s.params (x.toInt + (k : Int), y.toInt) = true) →
    ∃ t u,
      execAll (((List.range w.toNat).filter fun k => decide (x.toInt + (k : Int) ≤ 32767)).map fun k =>
        .setpx op (BitVec.ofInt 16 (x.toInt + (k : Int))) y) s = .next t ∧
      exec (.hline op x y w) s = .next u ∧
      u.fb = t.fb ∧ u = { s with fb := t.fb, respStatus := 0x00, respResult := 0 }

/-- R127: VLINE has the end state of the SETPX commands along its run, in the same sense. -/
def Obligations.VlineIsSetpxSequence : Prop :=
  ∀ (op : CombineOp) (x y ht : Word) (s : State), s.faulted = false → s.params.Legal →
    (s.params.safeMode = true ∨ ∀ k < ht.toNat, inRange s.params (x.toInt, y.toInt + (k : Int)) = true) →
    ∃ t u,
      execAll (((List.range ht.toNat).filter fun k => decide (y.toInt + (k : Int) ≤ 32767)).map fun k =>
        .setpx op x (BitVec.ofInt 16 (y.toInt + (k : Int)))) s = .next t ∧
      exec (.vline op x y ht) s = .next u ∧
      u.fb = t.fb ∧ u = { s with fb := t.fb, respStatus := 0x00, respResult := 0 }

/-! ## Circles -/

/-- R143, for every radius: CIRCLE plots the four axis points at distance `r` and the eight symmetric points of each step of the
walk, each as often as they coincide, and nothing else. R141: that is "the 8-way symmetric point set": mirrored left to right,
top to bottom, and across the diagonal, each point occurs equally often. -/
def Obligations.CircleIsEightWaySymmetric : Prop :=
  ∀ (x0 y0 : Int) (r : Nat) (dx dy : Int),
    let ps := circlePoints x0 y0 r
    ps.count (x0 + dx, y0 + dy) = circleCount r (dx, dy) ∧
      ps.count (x0 + dx, y0 + dy) = ps.count (x0 - dx, y0 + dy) ∧
      ps.count (x0 + dx, y0 + dy) = ps.count (x0 + dx, y0 - dy) ∧
      ps.count (x0 + dx, y0 + dy) = ps.count (x0 + dy, y0 + dx)

/-- R141: the walk's values for the radii the rule lists, and its recurrence for every radius: from `(0, r)` on, while
`x < y`, `x` rises by 1 and `y` falls by 1 exactly when the decision variable is at least 0; the walk stops at the first
`x >= y`. R144: radius 0 plots the centre four times, so Set and Clear act as SETPX does and Invert changes no byte; radius 1
plots each of the four axis neighbours three times and nothing else. -/
def Obligations.CircleSmallRadii : Prop :=
  (midpointSteps 0 = [] ∧ midpointSteps 1 = [(1, 0)] ∧ midpointSteps 2 = [(1, 2), (2, 1)] ∧
    midpointSteps 5 = [(1, 5), (2, 5), (3, 4), (4, 3)]) ∧
  (∀ (r k : Nat) (d : Point), ((0, (r : Int)) :: midpointSteps r)[k]? = some d →
    (midpointSteps r)[k]? =
      if d.1 < d.2 then some (d.1 + 1, if 0 ≤ decisionAt r d then d.2 - 1 else d.2) else none) ∧
  (∀ (x0 y0 : Int) (q : Point), (circlePoints x0 y0 0).count q = if q = (x0, y0) then 4 else 0) ∧
  (∀ (x0 y0 : Int) (q : Point), (circlePoints x0 y0 1).count q =
    if q = (x0 + 1, y0) ∨ q = (x0 - 1, y0) ∨ q = (x0, y0 + 1) ∨ q = (x0, y0 - 1) then 3 else 0) ∧
  (∀ (x y : Word) (s : State), s.faulted = false → s.params.Legal →
    (s.params.safeMode = true ∨ inRange s.params (x.toInt, y.toInt) = true) →
    ∃ t, exec (.circle .invert x y 0) s = .next t ∧ ∀ i, t.fbByte i = s.fbByte i)

/-- R145: CIRCH with mask 15 plots CIRCLE's points minus its first four, in a different order; mask 0 or radius 0 plots
nothing. -/
def Obligations.CirchFullMaskIsCircleWithoutAxis : Prop :=
  (∀ (x0 y0 : Int) (r : Nat), (cornerPoints x0 y0 r 15).Perm ((circlePoints x0 y0 r).drop 4)) ∧
  (∀ (x0 y0 : Int) (r : Nat), cornerPoints x0 y0 r 0 = []) ∧
  (∀ (x0 y0 : Int) (m : BitVec 4), cornerPoints x0 y0 0 m = [])

/-- R146, for every radius and mask: CIRCH plots the two points of each step of the walk in each quadrant the mask selects,
each as often as they coincide, and nothing else. Each mask bit adds its quadrant's points: bit 0 upper left, bit 1 upper right, bit 2 lower right, bit 3 lower left. -/
def Obligations.CirchMaskSelectsQuadrants : Prop :=
  ∀ (x0 y0 : Int) (r : Nat) (m : BitVec 4) (q : Point),
    (cornerPoints x0 y0 r m).count q = cornerCount r m (q.1 - x0, q.2 - y0) ∧
    (cornerPoints x0 y0 r m).count q =
      (if m.getLsbD 0 then (cornerPoints x0 y0 r 1).count q else 0)
        + (if m.getLsbD 1 then (cornerPoints x0 y0 r 2).count q else 0)
        + (if m.getLsbD 2 then (cornerPoints x0 y0 r 4).count q else 0)
        + (if m.getLsbD 3 then (cornerPoints x0 y0 r 8).count q else 0) ∧
    (q ∈ cornerPoints x0 y0 r 1 → q.1 ≤ x0 ∧ q.2 ≤ y0) ∧
    (q ∈ cornerPoints x0 y0 r 2 → x0 ≤ q.1 ∧ q.2 ≤ y0) ∧
    (q ∈ cornerPoints x0 y0 r 4 → x0 ≤ q.1 ∧ y0 ≤ q.2) ∧
    (q ∈ cornerPoints x0 y0 r 8 → q.1 ≤ x0 ∧ y0 ≤ q.2)

/-- FCIRC (R147, R148) and FCIRCH (R149, R150), under both values of SAFE_MODE: each visible pixel is drawn as often as spans
cover it, so Set and Clear give the union of the spans and Invert the parity. -/
def Obligations.FilledCirclesDrawSpans : Prop :=
  ∀ (op : CombineOp) (m : BitVec 2) (x0 y0 : Word) (r : Byte) (delta : Word) (s : State),
    s.faulted = false → s.params.Legal →
    (∃ t, exec (.fcirc op x0 y0 r) s = .next t ∧
      Drawn op (fun q => ((x0.toInt, y0.toInt - (r.toNat : Int), 2 * (r.toNat : Int) + 1) ::
        halfSpanList x0.toInt y0.toInt r.toNat 3 0).countP (covers q)) s t) ∧
    (∃ t, exec (.fcirch op m x0 y0 r delta) s = .next t ∧
      Drawn op (fun q => (halfSpanList x0.toInt y0.toInt r.toNat m delta.toInt).countP (covers q)) s t)

/-- R147: FCIRC is the centre column, which VLINE draws where its top fits an S16 operand, followed by FCIRCH with both halves
and delta 0. -/
def Obligations.FcircIsVlineThenFcirch : Prop :=
  ∀ (op : CombineOp) (x0 y0 : Word) (r : Byte) (s : State), -32768 ≤ y0.toInt - (r.toNat : Int) →
    s.faulted = false →
    ∃ t, exec (.fcirc op x0 y0 r) s = .next t ∧
      execAll [.vline op x0 (BitVec.ofInt 16 (y0.toInt - (r.toNat : Int))) (BitVec.ofNat 16 (2 * r.toNat + 1)),
        .fcirch op 3 x0 y0 r 0] s = .next t

/-! ## Bitmaps -/

/-- BLIT (R161, R163, R164), under both values of SAFE_MODE: every set source bit `(i, j)` lands at `(X + i, Y + j)`, whatever
`Y mod 8` is, padding rows included; bits of 0 leave their pixel; what falls outside is cut. -/
def Obligations.BlitDrawsSourceBits : Prop :=
  ∀ (op : CombineOp) (x y alo ahi w ht : Word) (s : State), s.faulted = false → s.params.Legal →
    extentInside s (address alo ahi) (w.toNat * ((ht.toNat + 7) / 8)) →
    ∃ t, exec (.blit op x y alo ahi w ht) s = .next t ∧
      Drawn op (blitCount s x.toInt y.toInt (address alo ahi) w.toNat ht.toNat) s t

/-- SLOWBLIT (R171) that does not fault: every set source bit `(xi, yi)` lands at `(X + xi, Y + yi)`; padding bits are never
plotted. -/
def Obligations.SlowblitDrawsSourceBits : Prop :=
  ∀ (op : CombineOp) (x y alo ahi w ht : Word) (s : State), s.faulted = false → s.params.Legal →
    extentInside s (address alo ahi) ((w.toNat + 7) / 8 * ht.toNat) →
    (s.params.safeMode = true ∨ ∀ i < w.toNat, ∀ j < ht.toNat, rowBit s (address alo ahi) w.toNat i j = true →
      inRange s.params (x.toInt + (i : Int), y.toInt + (j : Int)) = true) →
    ∃ t, exec (.slowblit op x y alo ahi w ht) s = .next t ∧
      Drawn op (slowblitCount s x.toInt y.toInt (address alo ahi) w.toNat ht.toNat) s t

/-- R165, R55, R171: a source extent that is not inside the asset memory faults with SRC_RANGE before any write, even when no
pixel would be on screen; and SLOWBLIT under SAFE_MODE = 0 faults with PIXEL_RANGE when a set bit lands out of range. -/
def Obligations.BlitsFault : Prop :=
  ∀ (op : CombineOp) (x y alo ahi w ht : Word) (s : State), s.faulted = false →
    (¬ extentInside s (address alo ahi) (w.toNat * ((ht.toNat + 7) / 8)) →
      exec (.blit op x y alo ahi w ht) s = .next (faultedWith s 0x02)) ∧
    (¬ extentInside s (address alo ahi) ((w.toNat + 7) / 8 * ht.toNat) →
      exec (.slowblit op x y alo ahi w ht) s = .next (faultedWith s 0x02)) ∧
    (extentInside s (address alo ahi) ((w.toNat + 7) / 8 * ht.toNat) → s.params.safeMode = false →
      (∃ i < w.toNat, ∃ j < ht.toNat, rowBit s (address alo ahi) w.toNat i j = true ∧
        inRange s.params (x.toInt + (i : Int), y.toInt + (j : Int)) = false) →
      exec (.slowblit op x y alo ahi w ht) s = .next (faultedWith s 0x01))

/-- R162: the byte form of BLIT gives the same end state as the per-pixel pseudocode, for every operand. -/
def Obligations.BlitByteFormAgrees : Prop :=
  ∀ (op : CombineOp) (x y : Int) (a w h : Nat) (s : State), s.params.Legal →
    ∀ i, (s.blitBytes op x y a w h).fbByte i = (s.plotAll op (blitPoints s x y a w h)).fbByte i

/-- R172: BLIT and SLOWBLIT of the same pixels in their own formats have the same end state, when HT is a multiple of 8 and
nothing faults. -/
def Obligations.BlitEqualsSlowblit : Prop :=
  ∀ (op : CombineOp) (x y w ht aloB ahiB aloS ahiS : Word) (s : State), s.faulted = false → s.params.Legal →
    ht.toNat % 8 = 0 →
    extentInside s (address aloB ahiB) (w.toNat * ((ht.toNat + 7) / 8)) →
    extentInside s (address aloS ahiS) ((w.toNat + 7) / 8 * ht.toNat) →
    (∀ i < w.toNat, ∀ j < ht.toNat,
      packedBit s (address aloB ahiB) w.toNat i j = rowBit s (address aloS ahiS) w.toNat i j) →
    (s.params.safeMode = true ∨ ∀ i < w.toNat, ∀ j < ht.toNat, rowBit s (address aloS ahiS) w.toNat i j = true →
      inRange s.params (x.toInt + (i : Int), y.toInt + (j : Int)) = true) →
    ∃ t u, exec (.blit op x y aloB ahiB w ht) s = .next t ∧ exec (.slowblit op x y aloS ahiS w ht) s = .next u ∧
      (∀ i, t.fbByte i = u.fbByte i) ∧
      t = { s with fb := t.fb, respStatus := 0x00, respResult := 0 } ∧
      u = { s with fb := u.fb, respStatus := 0x00, respResult := 0 }

/-! ## The frame scheduler -/

/-- SETFPS (R182, R194): the rate and the truncated period, nothing else; a rate of 0 is refused. -/
def Obligations.SetfpsSetsRate : Prop :=
  ∀ (rate : Byte) (s : State), s.faulted = false →
    (rate ≠ 0 → ∃ t, exec (.setfps rate) s = .next t ∧
      t = { s with frameRate := rate, eachFrameMs := t.eachFrameMs, respStatus := 0x00, respResult := 0 } ∧
      t.eachFrameMs.toNat = 1000 / rate.toNat ∧ 3 ≤ t.eachFrameMs.toNat ∧ t.eachFrameMs.toNat ≤ 1000) ∧
    (rate = 0 → exec (.setfps rate) s = .next { s with respStatus := 0x03, respResult := 0 })

/-- NEXTFRAME while waiting (R185, R183, R184): result 0; only CLOCK_LAST, the finalize step and, when more than the threshold
remains, one IdleReq. -/
def Obligations.NextframeWaits : Prop :=
  ∀ s : State, s.faulted = false → s.clockLast.toNat ≤ s.clock.toNat → s.clock.toNat < s.nextFrameStart.toNat →
    exec .nextframe s = .next
      { s with
        clockLast := s.clock
        frameCount := finalCount s
        lastFrameDuration := finalDuration s
        postRenderPending := false
        out := if s.nextFrameStart.toNat - s.clock.toNat > s.params.idleThresholdMs then s.out ++ [.idleReq] else s.out
        respStatus := 0x00
        respResult := 0 }

/-- NEXTFRAME opening a window (R186, R187): result 1, NEXT_FRAME_START on the grid or a period from now, LAST_FRAME_START now,
the finalize step before, POST_RENDER_PENDING set; nothing else. -/
def Obligations.NextframeOpens : Prop :=
  ∀ s : State, s.faulted = false → s.clockLast.toNat ≤ s.clock.toNat → s.nextFrameStart.toNat ≤ s.clock.toNat →
    nextOf s ≤ 2 ^ 32 - 1 →
    ∃ t, exec .nextframe s = .next t ∧ t.nextFrameStart.toNat = nextOf s ∧
      t = { s with
        clockLast := s.clock
        frameCount := finalCount s
        lastFrameDuration := finalDuration s
        nextFrameStart := t.nextFrameStart
        lastFrameStart := s.clock
        postRenderPending := true
        respStatus := 0x00
        respResult := 1 }

/-- R189, and R181 before it: an opening whose `next` exceeds 2^32 - 1 faults with TIME_OVERFLOW before any write, which can
only happen in the last second before the clock wraps. -/
def Obligations.NextframeFaults : Prop :=
  ∀ s : State, s.faulted = false →
    (s.clock.toNat < s.clockLast.toNat → exec .nextframe s = .next (faultedWith s 0x03)) ∧
    (s.clockLast.toNat ≤ s.clock.toNat → s.nextFrameStart.toNat ≤ s.clock.toNat → 2 ^ 32 - 1 < nextOf s →
      exec .nextframe s = .next (faultedWith s 0x04) ∧ (s.Inv → 2 ^ 32 - 1 - 1000 < s.clock.toNat))

/-- R253: after reset the first NEXTFRAME opens a window whatever the clock reads (short of R189's overflow), finalizes
nothing, and sets NEXT_FRAME_START to 16 when the clock is below 16 and to the clock plus 16 otherwise. -/
def Obligations.FirstNextframeOpens : Prop :=
  ∀ c : DWord, c.toNat + 16 ≤ 2 ^ 32 - 1 →
    ∃ t, exec .nextframe (State.reset.withClock c) = .next t ∧ t.respStatus = 0x00 ∧ t.respResult = 1 ∧
      t.nextFrameStart.toNat = (if c.toNat < 16 then 16 else c.toNat + 16) ∧
      t.lastFrameStart = c ∧ t.frameCount = 0 ∧ t.lastFrameDuration = 0 ∧ t.postRenderPending = true

/-- R187, R188: an opening sets NEXT_FRAME_START past now, so a query at any clock value before it is told to wait: never two
"proceed" results with no wait between. -/
def Obligations.NoCatchUp : Prop :=
  ∀ s t : State, s.Inv → exec .nextframe s = .next t → t.respStatus = 0x00 → t.respResult = 1 →
    s.clock.toNat < t.nextFrameStart.toNat ∧
    ∀ c : DWord, s.clock.toNat ≤ c.toNat → c.toNat < t.nextFrameStart.toNat →
      ∃ u, exec .nextframe (t.withClock c) = .next u ∧ u.respStatus = 0x00 ∧ u.respResult = 0

/-- R188: while EACH_FRAME_MS is unchanged, openings `m` windows apart are more than `(m - 1) * EACH_FRAME_MS` ms apart,
whatever the clock values at which the host queries. -/
def Obligations.WindowsKeepTheirDistance : Prop :=
  ∀ (s : State) (cs : List DWord), s.Inv →
    ∀ i m a b, (openings cs s)[i]? = some a → (openings cs s)[i + m]? = some b → 1 ≤ m →
      a + (m - 1) * s.eachFrameMs.toNat < b

/-- CPULOAD (R190, R191): the exact quotient, at most 2184500; nothing else changes. -/
def Obligations.CpuloadReportsBudget : Prop :=
  ∀ s : State, s.faulted = false → s.Inv →
    ∃ t, exec .cpuload s = .next t ∧
      t = { s with respStatus := 0x00, respResult := t.respResult } ∧
      t.respResult.toNat = s.lastFrameDuration.toNat * 100 / s.eachFrameMs.toNat ∧
      t.respResult.toNat ≤ 2184500

/-- EVERYX (R192): 1 when N divides FRAME_COUNT, 0 otherwise; N = 0 is refused; nothing else changes. -/
def Obligations.EveryxTestsCount : Prop :=
  ∀ (n : Byte) (s : State), s.faulted = false →
    (n ≠ 0 → exec (.everyx n) s = .next
      { s with respStatus := 0x00, respResult := if n.toNat ∣ s.frameCount.toNat then 1 else 0 }) ∧
    (n = 0 → exec (.everyx n) s = .next { s with respStatus := 0x03, respResult := 0 })

/-! ## PRESENT -/

/-- PRESENT up to its wait (R201): BUSY, and one event with the FB_BYTES bytes (R200) in index order (R54). That `exec` ends
there, with the bytes owed to the sink and the response of the command before, is the model's (log entry 12). -/
def Obligations.PresentStartsTransfer : Prop :=
  ∀ s : State, s.faulted = false →
    ∃ t bytes, exec .present s = .next t ∧
      bytes.length = s.params.fbBytes ∧ (∀ i < s.params.fbBytes, bytes[i]? = some (s.fbByte i)) ∧
      t = { s with busy := true, sinkLeft := bytes, out := s.out ++ [.present bytes] }

/-- R201: when the sink has taken all FB_BYTES bytes, PRESENT has ended with OK and 0, BUSY is clear, and but for the one
event the block is as it was before: FB unchanged, the scheduler untouched. That the sink takes one byte a step, and that the
response comes with the last, is the model's (log entry 12). -/
def Obligations.PresentCompletes : Prop :=
  ∀ (s : State) (rest : List Input), s.Inv → s.faulted = false → s.busy = false →
    ∃ t, exec .present s = .next t ∧
      Sys2Proof.core.run s.params.fbBytes
          { t with inputs := List.replicate s.params.fbBytes Input.sinkTake ++ rest } =
        .next { s with
          inputs := rest
          out := s.out ++ [.present ((List.range s.params.fbBytes).map s.fbByte)]
          respStatus := 0x00
          respResult := 0 }

/-- R202: while BUSY = 1 the port takes no word: every word the host is writing still waits after the step, in its order, and
but for a reset the assembler, the framebuffer, the asset memory and the fault state stand. The model's in it: asset writes
wait too (log entry 11), and what waits still waits after a reset (log entry 8). -/
def Obligations.BusyPortTakesNoWord : Prop :=
  ∀ s t : State, s.busy = true → step s = .next t →
    t.inputs.filter Input.heldBack = s.inputs.filter Input.heldBack ∧
    ((∃ rest, nextInput s.busy s.inputs = some (.reset, rest)) ∨
      (t.cmdBuf = s.cmdBuf ∧ t.fb = s.fb ∧ t.fbEpoch = s.fbEpoch ∧ t.src = s.src ∧ t.faulted = s.faulted ∧
        t.faultCause = s.faultCause ∧ t.out = s.out))

/-- R204: a sink that never takes the last byte leaves BUSY = 1 for ever: without a reset and with fewer takes to come than
bytes are left, after any number of steps BUSY stands, no response has come and the host's writes still wait. The model's in
it: asset writes wait too (log entry 11), and a take is one byte (log entry 12). -/
def Obligations.StuckSinkLeavesBusy : Prop :=
  ∀ (n : Nat) (s : State), s.busy = true → Input.reset ∉ s.inputs →
    s.inputs.count .sinkTake < s.sinkLeft.length →
    ∃ t, Sys2Proof.core.run n s = .next t ∧ t.busy = true ∧ t.cmdBuf = s.cmdBuf ∧ t.fb = s.fb ∧
      t.fbEpoch = s.fbEpoch ∧ t.respStatus = s.respStatus ∧ t.respResult = s.respResult ∧
      t.inputs.filter Input.heldBack = s.inputs.filter Input.heldBack

/-- R180: the clock input moves whenever the host moves it, and nothing else changes; R56: the asset memory changes between
commands, one byte inside SRC_SIZE. The model's in it: the clock passes the writes a BUSY block holds back (log entry 11), an
asset write also lands between the words of a half-sent command (log entry 23), and one at or past SRC_SIZE changes nothing
(log entry 18). -/
def Obligations.ClockAndAssetActs : Prop :=
  (∀ (s : State) (c : DWord) (held rest : List Input), s.inputs = held ++ Input.clock c :: rest →
    (if s.busy then ∀ i ∈ held, i.heldBack = true else held = []) →
    step s = .next { s with inputs := held ++ rest, clock := c }) ∧
  (∀ (s : State) (a : DWord) (b : Byte) (rest : List Input), s.inputs = Input.asset a b :: rest → s.busy = false →
    ∃ t, step s = .next t ∧ t = { s with inputs := rest, src := t.src } ∧
      ∀ k, t.srcByte k = if k = a.toNat ∧ a.toNat < s.params.srcSize then b else s.srcByte k)
end

