-- ==== Sys2Proof/Laws/Circle.lean ====
section
/-! SUPPORT. The decision-variable walk ends by its own condition, not by running out of turns (R141). -/

namespace Sys2Proof.Machine

/-- With as many turns as `y - x`, more turns change nothing. -/
theorem midpointLoop_fuel (n m : Nat) (f ddx ddy x y : Int) (hn : (y - x).toNat ≤ n) (hm : n ≤ m) :
    midpointLoop m f ddx ddy x y = midpointLoop n f ddx ddy x y := by
  induction n generalizing m f ddx ddy x y with
  | zero =>
    cases m with
    | zero => rfl
    | succ m =>
      have : ¬ x < y := by omega
      simp [midpointLoop, this]
  | succ n ih =>
    cases m with
    | zero => omega
    | succ m =>
      unfold midpointLoop
      split
      · simp only [List.cons.injEq, true_and]
        refine ih m _ _ _ _ _ ?_ (by omega)
        split <;> omega
      · rfl

/-- R141: the walk of radius `r` is the loop run for as long as `x < y`. -/
theorem midpointSteps_fuel (r m : Nat) (h : r ≤ m) :
    midpointLoop m (1 - r) 1 (-2 * r) 0 r = midpointSteps r :=
  midpointLoop_fuel r m _ _ _ _ _ (by omega) h

/-- R141: every offset pair of the walk has `1 <= x`, `0 <= y` and both at most `r`. -/
theorem midpointLoop_bounds {n : Nat} {f ddx ddy x y : Int} {d : Point} (hx : 0 ≤ x)
    (h : d ∈ midpointLoop n f ddx ddy x y) : x < d.1 ∧ d.1 ≤ y ∧ d.2 ≤ y ∧ x ≤ d.2 := by
  induction n generalizing f ddx ddy x y with
  | zero => simp [midpointLoop] at h
  | succ n ih =>
    unfold midpointLoop at h
    split at h
    · rcases List.mem_cons.1 h with rfl | h
      · dsimp only
        split <;> omega
      · have := ih (by omega) h
        revert this
        split <;> omega
    · simp at h

end Sys2Proof.Machine
end

