-- ==== Sys2Proof/Laws/Memory.lean ====
section
/-! SUPPORT. The listing of a memory: reads after writes, the canonical form, and equality of canonical memories. -/

namespace Sys2Proof.Machine

theorem Memory.read_write (m : Memory) (a b : Nat) (v : Byte) :
    (m.write a v).read b = if b = a then some v else m.read b := by
  induction m with
  | nil => simp [Memory.write, Memory.read]
  | cons c m ih =>
    obtain ⟨k, w⟩ := c
    unfold Memory.write
    split
    · simp [Memory.read]
    · split
      · subst a
        by_cases hb : b = k <;> simp [Memory.read, hb]
      · by_cases hb : b = k
        · subst b
          have : k ≠ a := fun h => ‹¬ a = k› h.symm
          simp [Memory.read, this]
        · simp [Memory.read, hb, ih]

@[simp] theorem Memory.read_write_same (m : Memory) (a : Nat) (v : Byte) :
    (m.write a v).read a = some v := by
  simp [Memory.read_write]

theorem Memory.read_write_other (m : Memory) {a b : Nat} (h : b ≠ a) (v : Byte) :
    (m.write a v).read b = m.read b := by
  simp [Memory.read_write, h]

/-- The addresses a write leaves listed: the written one and those listed before. -/
theorem Memory.mem_write {m : Memory} {a : Nat} {v : Byte} {c : Host.Cell} (h : c ∈ m.write a v) :
    c = (a, v) ∨ c ∈ m := by
  induction m with
  | nil => exact .inl (by simpa [Memory.write] using h)
  | cons d m ih =>
    obtain ⟨k, w⟩ := d
    unfold Memory.write at h
    split at h
    · simpa using h
    · split at h
      · simp only [List.mem_cons] at h ⊢
        tauto
      · rcases List.mem_cons.1 h with h | h
        · exact .inr (h ▸ List.mem_cons_self)
        · rcases ih h with h | h
          · exact .inl h
          · exact .inr (List.mem_cons_of_mem _ h)

/-- A write keeps the canonical form. -/
theorem Memory.wf_write {m : Memory} (h : Memory.wf m) (a : Nat) (v : Byte) : Memory.wf (m.write a v) := by
  induction m with
  | nil => simp [Memory.wf, Memory.write]
  | cons c m ih =>
    obtain ⟨k, w⟩ := c
    obtain ⟨hk, hm⟩ := List.pairwise_cons.1 h
    unfold Memory.write
    split
    · refine List.pairwise_cons.2 ⟨?_, h⟩
      intro d hd
      rcases List.mem_cons.1 hd with rfl | hd
      · assumption
      · exact Nat.lt_trans ‹a < k› (hk d hd)
    · split
      · subst a
        exact List.pairwise_cons.2 ⟨fun d hd => hk d hd, hm⟩
      · refine List.pairwise_cons.2 ⟨?_, ih hm⟩
        intro d hd
        rcases Memory.mem_write hd with rfl | hd
        · show k < a
          omega
        · exact hk d hd

/-- A write below the size keeps every listed address below it. -/
theorem Memory.below_write {m : Memory} {size a : Nat} (h : Memory.below m size) (ha : a < size) (v : Byte) :
    Memory.below (m.write a v) size := by
  intro c hc
  rcases Memory.mem_write hc with rfl | hc
  · exact ha
  · exact h c hc

theorem Memory.read_none_of_lt {m : Memory} {a : Nat} (h : ∀ c ∈ m, a < c.1) : m.read a = none := by
  induction m with
  | nil => rfl
  | cons c m ih =>
    obtain ⟨k, w⟩ := c
    have hk : a < k := h (k, w) List.mem_cons_self
    have : a ≠ k := Nat.ne_of_lt hk
    simp only [Memory.read, this, if_false]
    exact ih fun d hd => h d (List.mem_cons_of_mem _ hd)

/-- Equal memories are equal data. -/
theorem Memory.ext_of_read {m n : Memory} (hm : Memory.wf m) (hn : Memory.wf n)
    (h : ∀ a, m.read a = n.read a) : m = n := by
  induction m generalizing n with
  | nil =>
    cases n with
    | nil => rfl
    | cons d n => simpa [Memory.read] using h d.1
  | cons c m ih =>
    obtain ⟨k, v⟩ := c
    obtain ⟨hk, hm'⟩ := List.pairwise_cons.1 hm
    cases n with
    | nil => simpa [Memory.read] using h k
    | cons d n =>
      obtain ⟨l, w⟩ := d
      obtain ⟨hl, hn'⟩ := List.pairwise_cons.1 hn
      have hkl : k = l := by
        rcases Nat.lt_trichotomy k l with hlt | heq | hgt
        · have h1 := h k
          have h2 : Memory.read n k = none :=
            Memory.read_none_of_lt fun d hd => Nat.lt_trans hlt (hl d hd)
          simp [Memory.read, Nat.ne_of_lt hlt, h2] at h1
        · exact heq
        · have h1 := h l
          have h2 : Memory.read m l = none :=
            Memory.read_none_of_lt fun d hd => Nat.lt_trans hgt (hk d hd)
          simp [Memory.read, Nat.ne_of_lt hgt, h2] at h1
      subst hkl
      have hvw : v = w := by simpa [Memory.read] using h k
      subst hvw
      have : m = n := by
        refine ih hm' hn' fun a => ?_
        by_cases ha : a = k
        · subst ha
          rw [Memory.read_none_of_lt fun d hd => hk d hd, Memory.read_none_of_lt fun d hd => hl d hd]
        · simpa [Memory.read, ha] using h a
      rw [this]

end Sys2Proof.Machine
end

