-- ==== Sys2Proof/Laws/State.lean ====
section
/-! SUPPORT. One lemma per field per update of the state, true by rfl. -/

namespace Sys2Proof.Machine

section withFb

variable (s : State) (m : Memory)

@[simp] theorem withFb_params : (s.withFb m).params = s.params := rfl
@[simp] theorem withFb_fb : (s.withFb m).fb = m := rfl
@[simp] theorem withFb_fbEpoch : (s.withFb m).fbEpoch = s.fbEpoch := rfl
@[simp] theorem withFb_frameRate : (s.withFb m).frameRate = s.frameRate := rfl
@[simp] theorem withFb_eachFrameMs : (s.withFb m).eachFrameMs = s.eachFrameMs := rfl
@[simp] theorem withFb_frameCount : (s.withFb m).frameCount = s.frameCount := rfl
@[simp] theorem withFb_lastFrameStart : (s.withFb m).lastFrameStart = s.lastFrameStart := rfl
@[simp] theorem withFb_nextFrameStart : (s.withFb m).nextFrameStart = s.nextFrameStart := rfl
@[simp] theorem withFb_lastFrameDuration : (s.withFb m).lastFrameDuration = s.lastFrameDuration := rfl
@[simp] theorem withFb_postRenderPending : (s.withFb m).postRenderPending = s.postRenderPending := rfl
@[simp] theorem withFb_clockLast : (s.withFb m).clockLast = s.clockLast := rfl
@[simp] theorem withFb_respStatus : (s.withFb m).respStatus = s.respStatus := rfl
@[simp] theorem withFb_respResult : (s.withFb m).respResult = s.respResult := rfl
@[simp] theorem withFb_cmdBuf : (s.withFb m).cmdBuf = s.cmdBuf := rfl
@[simp] theorem withFb_busy : (s.withFb m).busy = s.busy := rfl
@[simp] theorem withFb_sinkLeft : (s.withFb m).sinkLeft = s.sinkLeft := rfl
@[simp] theorem withFb_faulted : (s.withFb m).faulted = s.faulted := rfl
@[simp] theorem withFb_faultCause : (s.withFb m).faultCause = s.faultCause := rfl
@[simp] theorem withFb_clock : (s.withFb m).clock = s.clock := rfl
@[simp] theorem withFb_src : (s.withFb m).src = s.src := rfl
@[simp] theorem withFb_inputs : (s.withFb m).inputs = s.inputs := rfl
@[simp] theorem withFb_out : (s.withFb m).out = s.out := rfl
@[simp] theorem withFb_draws : (s.withFb m).draws = s.draws := rfl

end withFb

section withResp

variable (s : State) (st : Status) (v : DWord)

@[simp] theorem withResp_params : (s.withResp st v).params = s.params := rfl
@[simp] theorem withResp_fb : (s.withResp st v).fb = s.fb := rfl
@[simp] theorem withResp_fbEpoch : (s.withResp st v).fbEpoch = s.fbEpoch := rfl
@[simp] theorem withResp_frameRate : (s.withResp st v).frameRate = s.frameRate := rfl
@[simp] theorem withResp_eachFrameMs : (s.withResp st v).eachFrameMs = s.eachFrameMs := rfl
@[simp] theorem withResp_frameCount : (s.withResp st v).frameCount = s.frameCount := rfl
@[simp] theorem withResp_lastFrameStart : (s.withResp st v).lastFrameStart = s.lastFrameStart := rfl
@[simp] theorem withResp_nextFrameStart : (s.withResp st v).nextFrameStart = s.nextFrameStart := rfl
@[simp] theorem withResp_lastFrameDuration : (s.withResp st v).lastFrameDuration = s.lastFrameDuration := rfl
@[simp] theorem withResp_postRenderPending : (s.withResp st v).postRenderPending = s.postRenderPending := rfl
@[simp] theorem withResp_clockLast : (s.withResp st v).clockLast = s.clockLast := rfl
@[simp] theorem withResp_respStatus : (s.withResp st v).respStatus = st.code := rfl
@[simp] theorem withResp_respResult : (s.withResp st v).respResult = v := rfl
@[simp] theorem withResp_cmdBuf : (s.withResp st v).cmdBuf = s.cmdBuf := rfl
@[simp] theorem withResp_busy : (s.withResp st v).busy = s.busy := rfl
@[simp] theorem withResp_sinkLeft : (s.withResp st v).sinkLeft = s.sinkLeft := rfl
@[simp] theorem withResp_faulted : (s.withResp st v).faulted = s.faulted := rfl
@[simp] theorem withResp_faultCause : (s.withResp st v).faultCause = s.faultCause := rfl
@[simp] theorem withResp_clock : (s.withResp st v).clock = s.clock := rfl
@[simp] theorem withResp_src : (s.withResp st v).src = s.src := rfl
@[simp] theorem withResp_inputs : (s.withResp st v).inputs = s.inputs := rfl
@[simp] theorem withResp_out : (s.withResp st v).out = s.out := rfl
@[simp] theorem withResp_draws : (s.withResp st v).draws = s.draws := rfl

end withResp

section withFault

variable (s : State) (c : FaultCause)

@[simp] theorem withFault_params : (s.withFault c).params = s.params := rfl
@[simp] theorem withFault_fb : (s.withFault c).fb = s.fb := rfl
@[simp] theorem withFault_fbEpoch : (s.withFault c).fbEpoch = s.fbEpoch := rfl
@[simp] theorem withFault_frameRate : (s.withFault c).frameRate = s.frameRate := rfl
@[simp] theorem withFault_eachFrameMs : (s.withFault c).eachFrameMs = s.eachFrameMs := rfl
@[simp] theorem withFault_frameCount : (s.withFault c).frameCount = s.frameCount := rfl
@[simp] theorem withFault_lastFrameStart : (s.withFault c).lastFrameStart = s.lastFrameStart := rfl
@[simp] theorem withFault_nextFrameStart : (s.withFault c).nextFrameStart = s.nextFrameStart := rfl
@[simp] theorem withFault_lastFrameDuration : (s.withFault c).lastFrameDuration = s.lastFrameDuration := rfl
@[simp] theorem withFault_postRenderPending : (s.withFault c).postRenderPending = s.postRenderPending := rfl
@[simp] theorem withFault_clockLast : (s.withFault c).clockLast = s.clockLast := rfl
@[simp] theorem withFault_respStatus : (s.withFault c).respStatus = s.respStatus := rfl
@[simp] theorem withFault_respResult : (s.withFault c).respResult = s.respResult := rfl
@[simp] theorem withFault_cmdBuf : (s.withFault c).cmdBuf = s.cmdBuf := rfl
@[simp] theorem withFault_busy : (s.withFault c).busy = s.busy := rfl
@[simp] theorem withFault_sinkLeft : (s.withFault c).sinkLeft = s.sinkLeft := rfl
@[simp] theorem withFault_faulted : (s.withFault c).faulted = true := rfl
@[simp] theorem withFault_faultCause : (s.withFault c).faultCause = c.code := rfl
@[simp] theorem withFault_clock : (s.withFault c).clock = s.clock := rfl
@[simp] theorem withFault_src : (s.withFault c).src = s.src := rfl
@[simp] theorem withFault_inputs : (s.withFault c).inputs = s.inputs := rfl
@[simp] theorem withFault_out : (s.withFault c).out = s.out := rfl
@[simp] theorem withFault_draws : (s.withFault c).draws = s.draws := rfl

end withFault

section emit

variable (s : State) (e : Event)

@[simp] theorem emit_params : (s.emit e).params = s.params := rfl
@[simp] theorem emit_fb : (s.emit e).fb = s.fb := rfl
@[simp] theorem emit_fbEpoch : (s.emit e).fbEpoch = s.fbEpoch := rfl
@[simp] theorem emit_frameRate : (s.emit e).frameRate = s.frameRate := rfl
@[simp] theorem emit_eachFrameMs : (s.emit e).eachFrameMs = s.eachFrameMs := rfl
@[simp] theorem emit_frameCount : (s.emit e).frameCount = s.frameCount := rfl
@[simp] theorem emit_lastFrameStart : (s.emit e).lastFrameStart = s.lastFrameStart := rfl
@[simp] theorem emit_nextFrameStart : (s.emit e).nextFrameStart = s.nextFrameStart := rfl
@[simp] theorem emit_lastFrameDuration : (s.emit e).lastFrameDuration = s.lastFrameDuration := rfl
@[simp] theorem emit_postRenderPending : (s.emit e).postRenderPending = s.postRenderPending := rfl
@[simp] theorem emit_clockLast : (s.emit e).clockLast = s.clockLast := rfl
@[simp] theorem emit_respStatus : (s.emit e).respStatus = s.respStatus := rfl
@[simp] theorem emit_respResult : (s.emit e).respResult = s.respResult := rfl
@[simp] theorem emit_cmdBuf : (s.emit e).cmdBuf = s.cmdBuf := rfl
@[simp] theorem emit_busy : (s.emit e).busy = s.busy := rfl
@[simp] theorem emit_sinkLeft : (s.emit e).sinkLeft = s.sinkLeft := rfl
@[simp] theorem emit_faulted : (s.emit e).faulted = s.faulted := rfl
@[simp] theorem emit_faultCause : (s.emit e).faultCause = s.faultCause := rfl
@[simp] theorem emit_clock : (s.emit e).clock = s.clock := rfl
@[simp] theorem emit_src : (s.emit e).src = s.src := rfl
@[simp] theorem emit_inputs : (s.emit e).inputs = s.inputs := rfl
@[simp] theorem emit_out : (s.emit e).out = s.out ++ [e] := rfl
@[simp] theorem emit_draws : (s.emit e).draws = s.draws := rfl

end emit

section finalize

variable (s : State) (now : Nat)

@[simp] theorem finalize_params : (s.finalize now).params = s.params := rfl
@[simp] theorem finalize_fb : (s.finalize now).fb = s.fb := rfl
@[simp] theorem finalize_fbEpoch : (s.finalize now).fbEpoch = s.fbEpoch := rfl
@[simp] theorem finalize_frameRate : (s.finalize now).frameRate = s.frameRate := rfl
@[simp] theorem finalize_eachFrameMs : (s.finalize now).eachFrameMs = s.eachFrameMs := rfl
@[simp] theorem finalize_frameCount : (s.finalize now).frameCount = s.frameCount + 1 := rfl
@[simp] theorem finalize_lastFrameStart : (s.finalize now).lastFrameStart = s.lastFrameStart := rfl
@[simp] theorem finalize_nextFrameStart : (s.finalize now).nextFrameStart = s.nextFrameStart := rfl
@[simp] theorem finalize_lastFrameDuration : (s.finalize now).lastFrameDuration = BitVec.ofNat 16 (min (now - s.lastFrameStart.toNat) 0xFFFF) := rfl
@[simp] theorem finalize_postRenderPending : (s.finalize now).postRenderPending = false := rfl
@[simp] theorem finalize_clockLast : (s.finalize now).clockLast = s.clockLast := rfl
@[simp] theorem finalize_respStatus : (s.finalize now).respStatus = s.respStatus := rfl
@[simp] theorem finalize_respResult : (s.finalize now).respResult = s.respResult := rfl
@[simp] theorem finalize_cmdBuf : (s.finalize now).cmdBuf = s.cmdBuf := rfl
@[simp] theorem finalize_busy : (s.finalize now).busy = s.busy := rfl
@[simp] theorem finalize_sinkLeft : (s.finalize now).sinkLeft = s.sinkLeft := rfl
@[simp] theorem finalize_faulted : (s.finalize now).faulted = s.faulted := rfl
@[simp] theorem finalize_faultCause : (s.finalize now).faultCause = s.faultCause := rfl
@[simp] theorem finalize_clock : (s.finalize now).clock = s.clock := rfl
@[simp] theorem finalize_src : (s.finalize now).src = s.src := rfl
@[simp] theorem finalize_inputs : (s.finalize now).inputs = s.inputs := rfl
@[simp] theorem finalize_out : (s.finalize now).out = s.out := rfl
@[simp] theorem finalize_draws : (s.finalize now).draws = s.draws := rfl

end finalize

section withClockLast

variable (s : State) (t : DWord)

@[simp] theorem withClockLast_params : (s.withClockLast t).params = s.params := rfl
@[simp] theorem withClockLast_fb : (s.withClockLast t).fb = s.fb := rfl
@[simp] theorem withClockLast_fbEpoch : (s.withClockLast t).fbEpoch = s.fbEpoch := rfl
@[simp] theorem withClockLast_frameRate : (s.withClockLast t).frameRate = s.frameRate := rfl
@[simp] theorem withClockLast_eachFrameMs : (s.withClockLast t).eachFrameMs = s.eachFrameMs := rfl
@[simp] theorem withClockLast_frameCount : (s.withClockLast t).frameCount = s.frameCount := rfl
@[simp] theorem withClockLast_lastFrameStart : (s.withClockLast t).lastFrameStart = s.lastFrameStart := rfl
@[simp] theorem withClockLast_nextFrameStart : (s.withClockLast t).nextFrameStart = s.nextFrameStart := rfl
@[simp] theorem withClockLast_lastFrameDuration : (s.withClockLast t).lastFrameDuration = s.lastFrameDuration := rfl
@[simp] theorem withClockLast_postRenderPending : (s.withClockLast t).postRenderPending = s.postRenderPending := rfl
@[simp] theorem withClockLast_clockLast : (s.withClockLast t).clockLast = t := rfl
@[simp] theorem withClockLast_respStatus : (s.withClockLast t).respStatus = s.respStatus := rfl
@[simp] theorem withClockLast_respResult : (s.withClockLast t).respResult = s.respResult := rfl
@[simp] theorem withClockLast_cmdBuf : (s.withClockLast t).cmdBuf = s.cmdBuf := rfl
@[simp] theorem withClockLast_busy : (s.withClockLast t).busy = s.busy := rfl
@[simp] theorem withClockLast_sinkLeft : (s.withClockLast t).sinkLeft = s.sinkLeft := rfl
@[simp] theorem withClockLast_faulted : (s.withClockLast t).faulted = s.faulted := rfl
@[simp] theorem withClockLast_faultCause : (s.withClockLast t).faultCause = s.faultCause := rfl
@[simp] theorem withClockLast_clock : (s.withClockLast t).clock = s.clock := rfl
@[simp] theorem withClockLast_src : (s.withClockLast t).src = s.src := rfl
@[simp] theorem withClockLast_inputs : (s.withClockLast t).inputs = s.inputs := rfl
@[simp] theorem withClockLast_out : (s.withClockLast t).out = s.out := rfl
@[simp] theorem withClockLast_draws : (s.withClockLast t).draws = s.draws := rfl

end withClockLast

section openWindow

variable (s : State) (now : DWord) (next : Nat)

@[simp] theorem openWindow_params : (s.openWindow now next).params = s.params := rfl
@[simp] theorem openWindow_fb : (s.openWindow now next).fb = s.fb := rfl
@[simp] theorem openWindow_fbEpoch : (s.openWindow now next).fbEpoch = s.fbEpoch := rfl
@[simp] theorem openWindow_frameRate : (s.openWindow now next).frameRate = s.frameRate := rfl
@[simp] theorem openWindow_eachFrameMs : (s.openWindow now next).eachFrameMs = s.eachFrameMs := rfl
@[simp] theorem openWindow_frameCount : (s.openWindow now next).frameCount = s.frameCount := rfl
@[simp] theorem openWindow_lastFrameStart : (s.openWindow now next).lastFrameStart = now := rfl
@[simp] theorem openWindow_nextFrameStart : (s.openWindow now next).nextFrameStart = BitVec.ofNat 32 next := rfl
@[simp] theorem openWindow_lastFrameDuration : (s.openWindow now next).lastFrameDuration = s.lastFrameDuration := rfl
@[simp] theorem openWindow_postRenderPending : (s.openWindow now next).postRenderPending = true := rfl
@[simp] theorem openWindow_clockLast : (s.openWindow now next).clockLast = s.clockLast := rfl
@[simp] theorem openWindow_respStatus : (s.openWindow now next).respStatus = s.respStatus := rfl
@[simp] theorem openWindow_respResult : (s.openWindow now next).respResult = s.respResult := rfl
@[simp] theorem openWindow_cmdBuf : (s.openWindow now next).cmdBuf = s.cmdBuf := rfl
@[simp] theorem openWindow_busy : (s.openWindow now next).busy = s.busy := rfl
@[simp] theorem openWindow_sinkLeft : (s.openWindow now next).sinkLeft = s.sinkLeft := rfl
@[simp] theorem openWindow_faulted : (s.openWindow now next).faulted = s.faulted := rfl
@[simp] theorem openWindow_faultCause : (s.openWindow now next).faultCause = s.faultCause := rfl
@[simp] theorem openWindow_clock : (s.openWindow now next).clock = s.clock := rfl
@[simp] theorem openWindow_src : (s.openWindow now next).src = s.src := rfl
@[simp] theorem openWindow_inputs : (s.openWindow now next).inputs = s.inputs := rfl
@[simp] theorem openWindow_out : (s.openWindow now next).out = s.out := rfl
@[simp] theorem openWindow_draws : (s.openWindow now next).draws = s.draws := rfl

end openWindow

section startTransfer

variable (s : State) (bs : List Byte)

@[simp] theorem startTransfer_params : (s.startTransfer bs).params = s.params := rfl
@[simp] theorem startTransfer_fb : (s.startTransfer bs).fb = s.fb := rfl
@[simp] theorem startTransfer_fbEpoch : (s.startTransfer bs).fbEpoch = s.fbEpoch := rfl
@[simp] theorem startTransfer_frameRate : (s.startTransfer bs).frameRate = s.frameRate := rfl
@[simp] theorem startTransfer_eachFrameMs : (s.startTransfer bs).eachFrameMs = s.eachFrameMs := rfl
@[simp] theorem startTransfer_frameCount : (s.startTransfer bs).frameCount = s.frameCount := rfl
@[simp] theorem startTransfer_lastFrameStart : (s.startTransfer bs).lastFrameStart = s.lastFrameStart := rfl
@[simp] theorem startTransfer_nextFrameStart : (s.startTransfer bs).nextFrameStart = s.nextFrameStart := rfl
@[simp] theorem startTransfer_lastFrameDuration : (s.startTransfer bs).lastFrameDuration = s.lastFrameDuration := rfl
@[simp] theorem startTransfer_postRenderPending : (s.startTransfer bs).postRenderPending = s.postRenderPending := rfl
@[simp] theorem startTransfer_clockLast : (s.startTransfer bs).clockLast = s.clockLast := rfl
@[simp] theorem startTransfer_respStatus : (s.startTransfer bs).respStatus = s.respStatus := rfl
@[simp] theorem startTransfer_respResult : (s.startTransfer bs).respResult = s.respResult := rfl
@[simp] theorem startTransfer_cmdBuf : (s.startTransfer bs).cmdBuf = s.cmdBuf := rfl
@[simp] theorem startTransfer_busy : (s.startTransfer bs).busy = true := rfl
@[simp] theorem startTransfer_sinkLeft : (s.startTransfer bs).sinkLeft = bs := rfl
@[simp] theorem startTransfer_faulted : (s.startTransfer bs).faulted = s.faulted := rfl
@[simp] theorem startTransfer_faultCause : (s.startTransfer bs).faultCause = s.faultCause := rfl
@[simp] theorem startTransfer_clock : (s.startTransfer bs).clock = s.clock := rfl
@[simp] theorem startTransfer_src : (s.startTransfer bs).src = s.src := rfl
@[simp] theorem startTransfer_inputs : (s.startTransfer bs).inputs = s.inputs := rfl
@[simp] theorem startTransfer_out : (s.startTransfer bs).out = s.out := rfl
@[simp] theorem startTransfer_draws : (s.startTransfer bs).draws = s.draws := rfl

end startTransfer

section endTransfer

variable (s : State)

@[simp] theorem endTransfer_params : s.endTransfer.params = s.params := rfl
@[simp] theorem endTransfer_fb : s.endTransfer.fb = s.fb := rfl
@[simp] theorem endTransfer_fbEpoch : s.endTransfer.fbEpoch = s.fbEpoch := rfl
@[simp] theorem endTransfer_frameRate : s.endTransfer.frameRate = s.frameRate := rfl
@[simp] theorem endTransfer_eachFrameMs : s.endTransfer.eachFrameMs = s.eachFrameMs := rfl
@[simp] theorem endTransfer_frameCount : s.endTransfer.frameCount = s.frameCount := rfl
@[simp] theorem endTransfer_lastFrameStart : s.endTransfer.lastFrameStart = s.lastFrameStart := rfl
@[simp] theorem endTransfer_nextFrameStart : s.endTransfer.nextFrameStart = s.nextFrameStart := rfl
@[simp] theorem endTransfer_lastFrameDuration : s.endTransfer.lastFrameDuration = s.lastFrameDuration := rfl
@[simp] theorem endTransfer_postRenderPending : s.endTransfer.postRenderPending = s.postRenderPending := rfl
@[simp] theorem endTransfer_clockLast : s.endTransfer.clockLast = s.clockLast := rfl
@[simp] theorem endTransfer_respStatus : s.endTransfer.respStatus = s.respStatus := rfl
@[simp] theorem endTransfer_respResult : s.endTransfer.respResult = s.respResult := rfl
@[simp] theorem endTransfer_cmdBuf : s.endTransfer.cmdBuf = s.cmdBuf := rfl
@[simp] theorem endTransfer_busy : s.endTransfer.busy = false := rfl
@[simp] theorem endTransfer_sinkLeft : s.endTransfer.sinkLeft = [] := rfl
@[simp] theorem endTransfer_faulted : s.endTransfer.faulted = s.faulted := rfl
@[simp] theorem endTransfer_faultCause : s.endTransfer.faultCause = s.faultCause := rfl
@[simp] theorem endTransfer_clock : s.endTransfer.clock = s.clock := rfl
@[simp] theorem endTransfer_src : s.endTransfer.src = s.src := rfl
@[simp] theorem endTransfer_inputs : s.endTransfer.inputs = s.inputs := rfl
@[simp] theorem endTransfer_out : s.endTransfer.out = s.out := rfl
@[simp] theorem endTransfer_draws : s.endTransfer.draws = s.draws := rfl

end endTransfer

section withSinkLeft

variable (s : State) (bs : List Byte)

@[simp] theorem withSinkLeft_params : (s.withSinkLeft bs).params = s.params := rfl
@[simp] theorem withSinkLeft_fb : (s.withSinkLeft bs).fb = s.fb := rfl
@[simp] theorem withSinkLeft_fbEpoch : (s.withSinkLeft bs).fbEpoch = s.fbEpoch := rfl
@[simp] theorem withSinkLeft_frameRate : (s.withSinkLeft bs).frameRate = s.frameRate := rfl
@[simp] theorem withSinkLeft_eachFrameMs : (s.withSinkLeft bs).eachFrameMs = s.eachFrameMs := rfl
@[simp] theorem withSinkLeft_frameCount : (s.withSinkLeft bs).frameCount = s.frameCount := rfl
@[simp] theorem withSinkLeft_lastFrameStart : (s.withSinkLeft bs).lastFrameStart = s.lastFrameStart := rfl
@[simp] theorem withSinkLeft_nextFrameStart : (s.withSinkLeft bs).nextFrameStart = s.nextFrameStart := rfl
@[simp] theorem withSinkLeft_lastFrameDuration : (s.withSinkLeft bs).lastFrameDuration = s.lastFrameDuration := rfl
@[simp] theorem withSinkLeft_postRenderPending : (s.withSinkLeft bs).postRenderPending = s.postRenderPending := rfl
@[simp] theorem withSinkLeft_clockLast : (s.withSinkLeft bs).clockLast = s.clockLast := rfl
@[simp] theorem withSinkLeft_respStatus : (s.withSinkLeft bs).respStatus = s.respStatus := rfl
@[simp] theorem withSinkLeft_respResult : (s.withSinkLeft bs).respResult = s.respResult := rfl
@[simp] theorem withSinkLeft_cmdBuf : (s.withSinkLeft bs).cmdBuf = s.cmdBuf := rfl
@[simp] theorem withSinkLeft_busy : (s.withSinkLeft bs).busy = s.busy := rfl
@[simp] theorem withSinkLeft_sinkLeft : (s.withSinkLeft bs).sinkLeft = bs := rfl
@[simp] theorem withSinkLeft_faulted : (s.withSinkLeft bs).faulted = s.faulted := rfl
@[simp] theorem withSinkLeft_faultCause : (s.withSinkLeft bs).faultCause = s.faultCause := rfl
@[simp] theorem withSinkLeft_clock : (s.withSinkLeft bs).clock = s.clock := rfl
@[simp] theorem withSinkLeft_src : (s.withSinkLeft bs).src = s.src := rfl
@[simp] theorem withSinkLeft_inputs : (s.withSinkLeft bs).inputs = s.inputs := rfl
@[simp] theorem withSinkLeft_out : (s.withSinkLeft bs).out = s.out := rfl
@[simp] theorem withSinkLeft_draws : (s.withSinkLeft bs).draws = s.draws := rfl

end withSinkLeft

section withRate

variable (s : State) (r : Byte)

@[simp] theorem withRate_params : (s.withRate r).params = s.params := rfl
@[simp] theorem withRate_fb : (s.withRate r).fb = s.fb := rfl
@[simp] theorem withRate_fbEpoch : (s.withRate r).fbEpoch = s.fbEpoch := rfl
@[simp] theorem withRate_frameRate : (s.withRate r).frameRate = r := rfl
@[simp] theorem withRate_eachFrameMs : (s.withRate r).eachFrameMs = BitVec.ofNat 16 (1000 / r.toNat) := rfl
@[simp] theorem withRate_frameCount : (s.withRate r).frameCount = s.frameCount := rfl
@[simp] theorem withRate_lastFrameStart : (s.withRate r).lastFrameStart = s.lastFrameStart := rfl
@[simp] theorem withRate_nextFrameStart : (s.withRate r).nextFrameStart = s.nextFrameStart := rfl
@[simp] theorem withRate_lastFrameDuration : (s.withRate r).lastFrameDuration = s.lastFrameDuration := rfl
@[simp] theorem withRate_postRenderPending : (s.withRate r).postRenderPending = s.postRenderPending := rfl
@[simp] theorem withRate_clockLast : (s.withRate r).clockLast = s.clockLast := rfl
@[simp] theorem withRate_respStatus : (s.withRate r).respStatus = s.respStatus := rfl
@[simp] theorem withRate_respResult : (s.withRate r).respResult = s.respResult := rfl
@[simp] theorem withRate_cmdBuf : (s.withRate r).cmdBuf = s.cmdBuf := rfl
@[simp] theorem withRate_busy : (s.withRate r).busy = s.busy := rfl
@[simp] theorem withRate_sinkLeft : (s.withRate r).sinkLeft = s.sinkLeft := rfl
@[simp] theorem withRate_faulted : (s.withRate r).faulted = s.faulted := rfl
@[simp] theorem withRate_faultCause : (s.withRate r).faultCause = s.faultCause := rfl
@[simp] theorem withRate_clock : (s.withRate r).clock = s.clock := rfl
@[simp] theorem withRate_src : (s.withRate r).src = s.src := rfl
@[simp] theorem withRate_inputs : (s.withRate r).inputs = s.inputs := rfl
@[simp] theorem withRate_out : (s.withRate r).out = s.out := rfl
@[simp] theorem withRate_draws : (s.withRate r).draws = s.draws := rfl

end withRate

section withInputs

variable (s : State) (is : List Input)

@[simp] theorem withInputs_params : (s.withInputs is).params = s.params := rfl
@[simp] theorem withInputs_fb : (s.withInputs is).fb = s.fb := rfl
@[simp] theorem withInputs_fbEpoch : (s.withInputs is).fbEpoch = s.fbEpoch := rfl
@[simp] theorem withInputs_frameRate : (s.withInputs is).frameRate = s.frameRate := rfl
@[simp] theorem withInputs_eachFrameMs : (s.withInputs is).eachFrameMs = s.eachFrameMs := rfl
@[simp] theorem withInputs_frameCount : (s.withInputs is).frameCount = s.frameCount := rfl
@[simp] theorem withInputs_lastFrameStart : (s.withInputs is).lastFrameStart = s.lastFrameStart := rfl
@[simp] theorem withInputs_nextFrameStart : (s.withInputs is).nextFrameStart = s.nextFrameStart := rfl
@[simp] theorem withInputs_lastFrameDuration : (s.withInputs is).lastFrameDuration = s.lastFrameDuration := rfl
@[simp] theorem withInputs_postRenderPending : (s.withInputs is).postRenderPending = s.postRenderPending := rfl
@[simp] theorem withInputs_clockLast : (s.withInputs is).clockLast = s.clockLast := rfl
@[simp] theorem withInputs_respStatus : (s.withInputs is).respStatus = s.respStatus := rfl
@[simp] theorem withInputs_respResult : (s.withInputs is).respResult = s.respResult := rfl
@[simp] theorem withInputs_cmdBuf : (s.withInputs is).cmdBuf = s.cmdBuf := rfl
@[simp] theorem withInputs_busy : (s.withInputs is).busy = s.busy := rfl
@[simp] theorem withInputs_sinkLeft : (s.withInputs is).sinkLeft = s.sinkLeft := rfl
@[simp] theorem withInputs_faulted : (s.withInputs is).faulted = s.faulted := rfl
@[simp] theorem withInputs_faultCause : (s.withInputs is).faultCause = s.faultCause := rfl
@[simp] theorem withInputs_clock : (s.withInputs is).clock = s.clock := rfl
@[simp] theorem withInputs_src : (s.withInputs is).src = s.src := rfl
@[simp] theorem withInputs_inputs : (s.withInputs is).inputs = is := rfl
@[simp] theorem withInputs_out : (s.withInputs is).out = s.out := rfl
@[simp] theorem withInputs_draws : (s.withInputs is).draws = s.draws := rfl

end withInputs

section withCmdBuf

variable (s : State) (ws : List Word)

@[simp] theorem withCmdBuf_params : (s.withCmdBuf ws).params = s.params := rfl
@[simp] theorem withCmdBuf_fb : (s.withCmdBuf ws).fb = s.fb := rfl
@[simp] theorem withCmdBuf_fbEpoch : (s.withCmdBuf ws).fbEpoch = s.fbEpoch := rfl
@[simp] theorem withCmdBuf_frameRate : (s.withCmdBuf ws).frameRate = s.frameRate := rfl
@[simp] theorem withCmdBuf_eachFrameMs : (s.withCmdBuf ws).eachFrameMs = s.eachFrameMs := rfl
@[simp] theorem withCmdBuf_frameCount : (s.withCmdBuf ws).frameCount = s.frameCount := rfl
@[simp] theorem withCmdBuf_lastFrameStart : (s.withCmdBuf ws).lastFrameStart = s.lastFrameStart := rfl
@[simp] theorem withCmdBuf_nextFrameStart : (s.withCmdBuf ws).nextFrameStart = s.nextFrameStart := rfl
@[simp] theorem withCmdBuf_lastFrameDuration : (s.withCmdBuf ws).lastFrameDuration = s.lastFrameDuration := rfl
@[simp] theorem withCmdBuf_postRenderPending : (s.withCmdBuf ws).postRenderPending = s.postRenderPending := rfl
@[simp] theorem withCmdBuf_clockLast : (s.withCmdBuf ws).clockLast = s.clockLast := rfl
@[simp] theorem withCmdBuf_respStatus : (s.withCmdBuf ws).respStatus = s.respStatus := rfl
@[simp] theorem withCmdBuf_respResult : (s.withCmdBuf ws).respResult = s.respResult := rfl
@[simp] theorem withCmdBuf_cmdBuf : (s.withCmdBuf ws).cmdBuf = ws := rfl
@[simp] theorem withCmdBuf_busy : (s.withCmdBuf ws).busy = s.busy := rfl
@[simp] theorem withCmdBuf_sinkLeft : (s.withCmdBuf ws).sinkLeft = s.sinkLeft := rfl
@[simp] theorem withCmdBuf_faulted : (s.withCmdBuf ws).faulted = s.faulted := rfl
@[simp] theorem withCmdBuf_faultCause : (s.withCmdBuf ws).faultCause = s.faultCause := rfl
@[simp] theorem withCmdBuf_clock : (s.withCmdBuf ws).clock = s.clock := rfl
@[simp] theorem withCmdBuf_src : (s.withCmdBuf ws).src = s.src := rfl
@[simp] theorem withCmdBuf_inputs : (s.withCmdBuf ws).inputs = s.inputs := rfl
@[simp] theorem withCmdBuf_out : (s.withCmdBuf ws).out = s.out := rfl
@[simp] theorem withCmdBuf_draws : (s.withCmdBuf ws).draws = s.draws := rfl

end withCmdBuf

section withClock

variable (s : State) (t : DWord)

@[simp] theorem withClock_params : (s.withClock t).params = s.params := rfl
@[simp] theorem withClock_fb : (s.withClock t).fb = s.fb := rfl
@[simp] theorem withClock_fbEpoch : (s.withClock t).fbEpoch = s.fbEpoch := rfl
@[simp] theorem withClock_frameRate : (s.withClock t).frameRate = s.frameRate := rfl
@[simp] theorem withClock_eachFrameMs : (s.withClock t).eachFrameMs = s.eachFrameMs := rfl
@[simp] theorem withClock_frameCount : (s.withClock t).frameCount = s.frameCount := rfl
@[simp] theorem withClock_lastFrameStart : (s.withClock t).lastFrameStart = s.lastFrameStart := rfl
@[simp] theorem withClock_nextFrameStart : (s.withClock t).nextFrameStart = s.nextFrameStart := rfl
@[simp] theorem withClock_lastFrameDuration : (s.withClock t).lastFrameDuration = s.lastFrameDuration := rfl
@[simp] theorem withClock_postRenderPending : (s.withClock t).postRenderPending = s.postRenderPending := rfl
@[simp] theorem withClock_clockLast : (s.withClock t).clockLast = s.clockLast := rfl
@[simp] theorem withClock_respStatus : (s.withClock t).respStatus = s.respStatus := rfl
@[simp] theorem withClock_respResult : (s.withClock t).respResult = s.respResult := rfl
@[simp] theorem withClock_cmdBuf : (s.withClock t).cmdBuf = s.cmdBuf := rfl
@[simp] theorem withClock_busy : (s.withClock t).busy = s.busy := rfl
@[simp] theorem withClock_sinkLeft : (s.withClock t).sinkLeft = s.sinkLeft := rfl
@[simp] theorem withClock_faulted : (s.withClock t).faulted = s.faulted := rfl
@[simp] theorem withClock_faultCause : (s.withClock t).faultCause = s.faultCause := rfl
@[simp] theorem withClock_clock : (s.withClock t).clock = t := rfl
@[simp] theorem withClock_src : (s.withClock t).src = s.src := rfl
@[simp] theorem withClock_inputs : (s.withClock t).inputs = s.inputs := rfl
@[simp] theorem withClock_out : (s.withClock t).out = s.out := rfl
@[simp] theorem withClock_draws : (s.withClock t).draws = s.draws := rfl

end withClock

end Sys2Proof.Machine
end

