-- ==== Sys2Proof/Laws/Framebuffer.lean ====
section
/-! SUPPORT. What the framebuffer operations do: one byte combined, one pixel plotted, a list plotted, and the frame of each. -/

namespace Sys2Proof.Machine

@[simp] theorem fbByte_withResp (s : State) (st : Status) (v : DWord) (i : Nat) :
    (s.withResp st v).fbByte i = s.fbByte i := rfl

@[simp] theorem pixel_withResp (s : State) (st : Status) (v : DWord) (q : Point) :
    (s.withResp st v).pixel q = s.pixel q := rfl

theorem inRange_iff (p : Params) (q : Point) :
    inRange p q = true ↔ 0 ≤ q.1 ∧ q.1 < (p.width : Int) ∧ 0 ≤ q.2 ∧ q.2 < (p.height : Int) := by
  simp [inRange]

/-- R20: "0 <= ByteIndex < FB_BYTES" for an in-range point. -/
theorem byteIndex_lt {p : Params} (hp : p.Legal) {q : Point} (h : inRange p q = true) :
    byteIndex p q < p.fbBytes := by
  obtain ⟨hx, hxw, hy, hyh⟩ := (inRange_iff p q).1 h
  obtain ⟨-, -, -, -, h8, -⟩ := hp
  obtain ⟨k, hk⟩ : ∃ k, p.height = 8 * k := ⟨p.height / 8, by omega⟩
  have hb : p.fbBytes = p.width * k := by
    unfold Params.fbBytes
    rw [hk, show p.width * (8 * k) = 8 * (p.width * k) by ring]
    omega
  have h1 : q.2.toNat / 8 + 1 ≤ k := by omega
  have h2 : q.1.toNat < p.width := by omega
  calc byteIndex p q = q.2.toNat / 8 * p.width + q.1.toNat := rfl
    _ < q.2.toNat / 8 * p.width + p.width := by omega
    _ = (q.2.toNat / 8 + 1) * p.width := by ring
    _ ≤ k * p.width := Nat.mul_le_mul_right _ h1
    _ = p.fbBytes := by rw [hb, Nat.mul_comm]

/-- R20: two in-range points that share a byte and a bit are one point. -/
theorem point_eq_of_byte_bit {p : Params} {q r : Point} (hq : inRange p q = true) (hr : inRange p r = true)
    (hi : byteIndex p q = byteIndex p r) (hb : bitPos q = bitPos r) : q = r := by
  obtain ⟨hx, hxw, hy, hyh⟩ := (inRange_iff p q).1 hq
  obtain ⟨hx', hxw', hy', hyh'⟩ := (inRange_iff p r).1 hr
  have hw : 0 < p.width := by omega
  unfold byteIndex at hi
  have h1 : q.1.toNat < p.width := by omega
  have h2 : r.1.toNat < p.width := by omega
  have hm : q.1.toNat = r.1.toNat := by
    have := congrArg (· % p.width) hi
    simpa [Nat.add_mod, Nat.mul_mod_left, Nat.mod_eq_of_lt h1, Nat.mod_eq_of_lt h2] using this
  have hd : q.2.toNat / 8 = r.2.toNat / 8 := by
    have h3 : q.2.toNat / 8 * p.width = r.2.toNat / 8 * p.width := by omega
    exact Nat.eq_of_mul_eq_mul_right hw h3
  unfold bitPos at hb
  apply Prod.ext
  · omega
  · omega

theorem fbByte_withFb_write (s : State) (i j : Nat) (v : Byte) :
    (s.withFb (s.fb.write i v)).fbByte j = if j = i then v else s.fbByte j := by
  unfold State.fbByte
  simp only [withFb_fb, withFb_fbEpoch, Memory.read_write]
  by_cases h : j = i <;> simp [h]

/-- What combining one byte does to a byte read (R58, R59). -/
theorem fbByte_combineAt (op : CombineOp) (s : State) (i j : Nat) (m : Byte) :
    (s.combineAt op i m).fbByte j =
      if j = i ∧ i < s.params.fbBytes then combine op (s.fbByte i) m else s.fbByte j := by
  unfold State.combineAt
  split
  · rw [fbByte_withFb_write]
    by_cases h : j = i <;> simp [*]
  · simp [*]

/-- Combining one byte changes the framebuffer alone. -/
theorem combineAt_frame (op : CombineOp) (s : State) (i : Nat) (m : Byte) :
    s.combineAt op i m = s.withFb (s.combineAt op i m).fb := by
  unfold State.combineAt
  split <;> rfl

theorem plot_frame (op : CombineOp) (s : State) (q : Point) :
    s.plot op q = s.withFb (s.plot op q).fb := by
  unfold State.plot
  split
  · exact combineAt_frame op s _ _
  · rfl

@[simp] theorem plot_params (op : CombineOp) (s : State) (q : Point) : (s.plot op q).params = s.params := by
  rw [plot_frame]
  rfl

@[simp] theorem plotAll_nil (op : CombineOp) (s : State) : s.plotAll op [] = s := rfl

@[simp] theorem plotAll_cons (op : CombineOp) (s : State) (q : Point) (ps : List Point) :
    s.plotAll op (q :: ps) = (s.plot op q).plotAll op ps := rfl

theorem plotAll_append (op : CombineOp) (s : State) (ps qs : List Point) :
    s.plotAll op (ps ++ qs) = (s.plotAll op ps).plotAll op qs := by
  simp [State.plotAll, List.foldl_append]

/-- A list of plots changes the framebuffer alone. -/
theorem plotAll_frame (op : CombineOp) (s : State) (ps : List Point) :
    s.plotAll op ps = s.withFb (s.plotAll op ps).fb := by
  induction ps generalizing s with
  | nil => rfl
  | cons q ps ih =>
    have h := ih (s.plot op q)
    rw [plotAll_cons, h, plot_frame op s q]
    rfl

@[simp] theorem plotAll_params (op : CombineOp) (s : State) (ps : List Point) :
    (s.plotAll op ps).params = s.params := by
  rw [plotAll_frame]
  rfl

/-- A bit of a combined byte (R12). -/
theorem getLsbD_combine (op : CombineOp) (b m : Byte) (k : Nat) (hk : k < 8) :
    (combine op b m).getLsbD k =
      match op with
      | .set => b.getLsbD k || m.getLsbD k
      | .clear => b.getLsbD k && !m.getLsbD k
      | .invert => b.getLsbD k ^^ m.getLsbD k := by
  cases op <;> simp [combine, hk]

theorem getLsbD_bitMask (q : Point) (k : Nat) (hk : k < 8) :
    (bitMask q).getLsbD k = decide (k = bitPos q) := by
  have hq : bitPos q < 8 := Nat.mod_lt _ (by decide)
  unfold bitMask
  generalize bitPos q = n at hq
  interval_cases n <;> interval_cases k <;> decide

theorem plot_of_not_inRange {op : CombineOp} {s : State} {q : Point} (h : inRange s.params q = false) :
    s.plot op q = s := by
  simp [State.plot, h]

/-- R100: what plotting one in-range point does to a pixel read: the point's own pixel is combined, every other one kept. -/
theorem pixel_plot {op : CombineOp} {s : State} (hp : s.params.Legal) {q r : Point}
    (hq : inRange s.params q = true) (hr : inRange s.params r = true) :
    (s.plot op q).pixel r =
      if r = q then (match op with | .set => true | .clear => false | .invert => !s.pixel r) else s.pixel r := by
  have hlt := byteIndex_lt hp hq
  have h8 : bitPos r < 8 := Nat.mod_lt _ (by decide)
  unfold State.pixel
  rw [plot_params]
  simp only [State.plot, hq, if_true]
  rw [fbByte_combineAt]
  by_cases hrq : r = q
  · subst hrq
    simp only [hlt, and_self, if_true]
    rw [getLsbD_combine _ _ _ _ h8, getLsbD_bitMask _ _ h8]
    cases op <;> simp
  · simp only [hrq, if_false]
    split
    · rename_i h
      have hb : bitPos r ≠ bitPos q := fun hb => hrq (point_eq_of_byte_bit hr hq h.1 hb)
      rw [getLsbD_combine _ _ _ _ h8, getLsbD_bitMask _ _ h8, h.1]
      cases op <;> simp [hb]
    · rfl

/-- R100: plotting one point changes no byte but the point's. -/
theorem fbByte_plot_other {op : CombineOp} {s : State} {q : Point} {i : Nat} (h : i ≠ byteIndex s.params q) :
    (s.plot op q).fbByte i = s.fbByte i := by
  unfold State.plot
  split
  · rw [fbByte_combineAt]
    simp [h]
  · rfl

/-- Plots keep the framebuffer's listing canonical and inside the buffer (R59). -/
theorem combineAt_wf {op : CombineOp} {s : State} {i : Nat} {m : Byte} (h : s.fb.wf) :
    (s.combineAt op i m).fb.wf := by
  unfold State.combineAt
  split
  · exact Memory.wf_write h _ _
  · exact h

theorem combineAt_below {op : CombineOp} {s : State} {i : Nat} {m : Byte}
    (h : s.fb.below s.params.fbBytes) : (s.combineAt op i m).fb.below s.params.fbBytes := by
  unfold State.combineAt
  split
  · exact Memory.below_write h ‹_› _
  · exact h

theorem plotAll_wf {op : CombineOp} {s : State} (ps : List Point) (h : s.fb.wf) : (s.plotAll op ps).fb.wf := by
  induction ps generalizing s with
  | nil => exact h
  | cons q ps ih =>
    refine ih ?_
    unfold State.plot
    split
    · exact combineAt_wf h
    · exact h

theorem plotAll_below {op : CombineOp} {s : State} (ps : List Point) (h : s.fb.below s.params.fbBytes) :
    (s.plotAll op ps).fb.below s.params.fbBytes := by
  induction ps generalizing s with
  | nil => exact h
  | cons q ps ih =>
    have hq : (s.plot op q).fb.below s.params.fbBytes := by
      unfold State.plot
      split
      · exact combineAt_below h
      · exact h
    have := ih (s := s.plot op q) (by simpa using hq)
    simpa using this

end Sys2Proof.Machine
end

