-- ==== Sys2Proof/Laws/Command.lean ====
section
/-! SUPPORT. What a command, a plot list, a fill and a word on the port can do: one lemma per shared operation. -/

namespace Sys2Proof.Machine

/-- R227, R230: a command in the fault state. -/
theorem command_faulted {s : State} (h : s.faulted = true) (body : State → State) :
    s.command body = .next s.respondFaulted := by
  simp [State.command, h]

/-- R230: a command that executes. -/
theorem command_sound {s : State} (h : s.faulted = false) (body : State → State) :
    s.command body = .next (body s) := by
  simp [State.command, h]

/-- R102: a plot list that does not fault. -/
theorem runPlots_ok {op : CombineOp} {s : State} {ps : List Point}
    (h : s.params.safeMode = true ∨ ∀ q ∈ ps, inRange s.params q = true) :
    s.runPlots op ps = (s.plotAll op ps).respond 0 := by
  unfold State.runPlots
  rcases h with h | h
  · simp [h]
  · have : ps.any (fun q => !inRange s.params q) = false := by
      simp only [List.any_eq_false]
      intro q hq
      simp [h q hq]
    simp [this]

/-- R102: a plot list that faults, before any write. -/
theorem runPlots_fault {op : CombineOp} {s : State} {ps : List Point} (hs : s.params.safeMode = false)
    {q : Point} (hq : q ∈ ps) (ho : inRange s.params q = false) :
    s.runPlots op ps = s.raiseFault .pixelRange := by
  have : ps.any (fun q => !inRange s.params q) = true :=
    List.any_eq_true.2 ⟨q, hq, by simp [ho]⟩
  simp [State.runPlots, hs, this]

/-- The fold of FILL over the first `n` bytes (R105). -/
theorem fillUpTo (op : CombineOp) (s : State) (n : Nat) :
    let t := (List.range n).foldl (fun t i => t.combineAt op i 0xFF) s
    t = s.withFb t.fb ∧
      ∀ i, t.fbByte i = if i < n ∧ i < s.params.fbBytes then combine op (s.fbByte i) 0xFF else s.fbByte i := by
  induction n with
  | zero => exact ⟨rfl, by simp⟩
  | succ n ih =>
    obtain ⟨hf, hb⟩ := ih
    simp only [List.range_succ, List.foldl_append, List.foldl_cons, List.foldl_nil]
    generalize hu : (List.range n).foldl (fun t i => t.combineAt op i 0xFF) s = u at hf hb
    have hp : u.params = s.params := by rw [hf]; rfl
    refine ⟨?_, fun i => ?_⟩
    · rw [combineAt_frame op u, hf]
      rfl
    · rw [fbByte_combineAt, hb, hb, hp]
      by_cases hi : i = n
      · subst hi
        simp
      · have : i < n + 1 ↔ i < n := by omega
        simp [hi, this]

/-- R105: FILL changes the framebuffer alone. -/
theorem fillAll_frame (op : CombineOp) (s : State) : s.fillAll op = s.withFb (s.fillAll op).fb :=
  (fillUpTo op s s.params.fbBytes).1

/-- R105: FILL combines every byte of the buffer with 0xFF. -/
theorem fbByte_fillAll (op : CombineOp) (s : State) (i : Nat) :
    (s.fillAll op).fbByte i = if i < s.params.fbBytes then combine op (s.fbByte i) 0xFF else s.fbByte i := by
  have := (fillUpTo op s s.params.fbBytes).2 i
  simpa [State.fillAll] using this

theorem fillAll_wf {op : CombineOp} {s : State} (h : s.fb.wf) : (s.fillAll op).fb.wf := by
  unfold State.fillAll
  generalize List.range s.params.fbBytes = l
  induction l generalizing s with
  | nil => exact h
  | cons i l ih => exact ih (combineAt_wf h)

theorem fillAll_below {op : CombineOp} {s : State} (h : s.fb.below s.params.fbBytes) :
    (s.fillAll op).fb.below s.params.fbBytes := by
  unfold State.fillAll
  generalize List.range s.params.fbBytes = l
  have : ∀ u : State, u.params = s.params → u.fb.below s.params.fbBytes →
      (l.foldl (fun t i => t.combineAt op i 0xFF) u).fb.below s.params.fbBytes := by
    induction l with
    | nil => exact fun u _ hu => hu
    | cons i l ih =>
      intro u hu hb
      refine ih _ ?_ ?_
      · show (u.combineAt op i 0xFF).params = s.params
        rw [combineAt_frame]
        exact hu
      · show (u.combineAt op i 0xFF).fb.below s.params.fbBytes
        rw [← hu]
        exact combineAt_below (hu ▸ hb)
  exact this s rfl h

/-- R71, R80: what a word leads to, by what the decoder says of CMD_BUF with the word. -/
theorem assemble_run {s : State} {w : Word} {i : Instr} {tl : List Word}
    (h : decode (s.cmdBuf ++ [w]) = .ok (i, tl)) : s.assemble w = .run (s.withCmdBuf []) i := by
  simp [State.assemble, h]

theorem assemble_waiting {s : State} {w : Word} (h : decode (s.cmdBuf ++ [w]) = .error .incomplete) :
    s.assemble w = .waiting (s.withCmdBuf (s.cmdBuf ++ [w])) := by
  simp [State.assemble, h]

/-- The act at the head goes first when the block is not BUSY, or when it is one that does not wait. -/
theorem nextInput_head {busy : Bool} {i : Input} {rest : List Input}
    (h : busy = false ∨ i.heldBack = false) : nextInput busy (i :: rest) = some (i, rest) := by
  rcases h with h | h <;> simp [nextInput, h]

/-- R202: acts a BUSY block holds back stay where they are. -/
theorem nextInput_held {i : Input} {rest : List Input} (h : i.heldBack = true) :
    nextInput true (i :: rest) = (nextInput true rest).map fun r => (r.1, i :: r.2) := by
  simp only [nextInput, h, Bool.and_self, if_true]
  cases nextInput true rest <;> rfl

end Sys2Proof.Machine
end

