-- ==== Sys2Proof/Laws/Decode.lean ====
section
/-! SUPPORT. The opcode map and the header fields: an assigned byte and its row, the fields of an encoded header. -/

namespace Sys2Proof

@[simp] theorem opcodeOf_code (o : Opcode) : opcodeOf o.code = some o := by
  cases o <;> rfl

/-- R78, R84: a byte assigned to a row is that row's code. -/
theorem code_of_opcodeOf {b : BitVec 8} {o : Opcode} (h : opcodeOf b = some o) : b = o.code := by
  apply BitVec.eq_of_toNat_eq
  unfold opcodeOf at h
  split at h <;> first | (cases h; assumption) | cases h

@[simp] theorem hdrOpc_encodeHeader (o : Opcode) (c : BitVec 2) (m : BitVec 4) :
    hdrOpc (encodeHeader o c m) = o.code := by
  unfold hdrOpc encodeHeader
  ext i hi
  simp [hi, show i < 10 by omega]
  omega

@[simp] theorem hdrCol_encodeHeader (o : Opcode) (c : BitVec 2) (m : BitVec 4) :
    hdrCol (encodeHeader o c m) = c := by
  unfold hdrCol encodeHeader
  ext i hi
  simp [hi, show 8 + i < 16 by omega, show 8 + i < 10 by omega]

@[simp] theorem hdrMsk_encodeHeader (o : Opcode) (c : BitVec 2) (m : BitVec 4) :
    hdrMsk (encodeHeader o c m) = m := by
  unfold hdrMsk encodeHeader
  ext i hi
  simp [hi, show 10 + i < 16 by omega, BitVec.getLsbD_of_ge c (10 + i - 8) (by omega),
    BitVec.getLsbD_of_ge o.code (10 + i) (by omega)]

@[simp] theorem hdrRsv_encodeHeader (o : Opcode) (c : BitVec 2) (m : BitVec 4) :
    hdrRsv (encodeHeader o c m) = 0 := by
  unfold hdrRsv encodeHeader
  ext i hi
  simp [show 14 + i < 16 by omega, BitVec.getLsbD_of_ge m (14 + i - 10) (by omega),
    BitVec.getLsbD_of_ge c (14 + i - 8) (by omega), BitVec.getLsbD_of_ge o.code (14 + i) (by omega)]

@[simp] theorem operandU8_encodeU8 (b : Byte) : operandU8 (encodeU8 b) = some b := by
  have h1 : (encodeU8 b).extractLsb' 8 8 = 0 := by
    unfold encodeU8
    ext i hi
    simp
  have h2 : (encodeU8 b).extractLsb' 0 8 = b := by
    unfold encodeU8
    ext i hi
    simp [hi, show i < 16 by omega]
  simp [operandU8, h1, h2]

/-- R73, R82: a word that is a U8 operand is the encoding of its byte. -/
theorem encodeU8_of_operandU8 {w : Word} {b : Byte} (h : operandU8 w = some b) : w = encodeU8 b := by
  unfold operandU8 at h
  split at h
  · rename_i hz
    cases h
    unfold encodeU8
    ext i hi
    by_cases h8 : i < 8
    · simp [h8, hi]
    · have := congrArg (fun v : BitVec 8 => v.getLsbD (i - 8)) hz
      simp [show i - 8 < 8 by omega, show 8 + (i - 8) = i by omega] at this
      simp [h8, ← BitVec.getLsbD_eq_getElem, this]
  · cases h

@[simp] theorem colourOf_col (op : CombineOp) : colourOf op.col = op := by
  cases op <;> rfl

/-- R80, R84: an unassigned opcode. -/
theorem decode_illegal {h : Word} (ws : List Word) (ho : opcodeOf (hdrOpc h) = none) :
    decode (h :: ws) = .error .illegalOpcode := by
  simp [decode, ho]

/-- R71: an assigned opcode with words missing. -/
theorem decode_incomplete {h : Word} {ws : List Word} {o : Opcode} (ho : opcodeOf (hdrOpc h) = some o)
    (hl : ws.length + 1 < o.words) : decode (h :: ws) = .error .incomplete := by
  simp [decode, ho, hl]

/-- R83: an assigned opcode with all its words. -/
theorem decode_complete {h : Word} {ws : List Word} {o : Opcode} (ho : opcodeOf (hdrOpc h) = some o)
    (hl : o.words ≤ ws.length + 1) :
    decode (h :: ws) = if headerAllowed o h then decodeOperands o h ws else .error .reservedField := by
  simp [decode, ho, Nat.not_lt.2 hl]

/-- The operands are never refused but for their range, when they are all there (R82). -/
theorem decodeOperands_error {o : Opcode} {h : Word} {ws : List Word} {e : Reject}
    (hl : o.words ≤ ws.length + 1) (he : decodeOperands o h ws = .error e) : e = .operandRange := by
  have u8 : ∀ {w : Word} {f : Byte → Instr} {rest : List Word},
      (match operandU8 w with
        | some r => Except.ok (f r, rest)
        | none => .error Reject.operandRange) = .error e → e = .operandRange := by
    intro w f rest hm
    split at hm
    · cases hm
    · cases hm
      rfl
  cases o <;> simp only [Opcode.words] at hl <;>
    rcases ws with _ | ⟨a, _ | ⟨b, _ | ⟨c, _ | ⟨d, _ | ⟨f, _ | ⟨g, ws⟩⟩⟩⟩⟩⟩ <;>
    first
      | (exfalso; simp only [List.length_cons, List.length_nil] at hl; omega)
      | (simp only [decodeOperands] at he; first | exact u8 he | cases he)

end Sys2Proof
end

