-- ==== Sys2Proof/Laws/Inv.lean ====
section
/-! SUPPORT. The shared operations keep the invariant: responses, plot lists, fault entry. -/

namespace Sys2Proof.Machine

/-- A response keeps the invariant (R34, R220). -/
theorem Inv_withResp {s : State} (h : s.Inv) (st : Status) (v : DWord) : (s.withResp st v).Inv := by
  constructor
  case status_code => cases st <;> simp [State.withResp, Status.code]
  case left_suffix => exact h.left_suffix
  all_goals first
    | exact h.params_legal | exact h.fb_wf | exact h.fb_below | exact h.src_wf | exact h.src_below | exact h.rate_pos
    | exact h.each_eq | exact h.start_le_clock | exact h.pending_start | exact h.next_after_start
    | exact h.fault_cause | exact h.cmdBuf_partial | exact h.busy_iff_left | exact h.busy_alone | exact h.epoch_lt

/-- A block that is not BUSY has no byte to send (R36, R201). -/
theorem sinkLeft_nil_of_Inv {s : State} (h : s.Inv) (hb : s.busy = false) : s.sinkLeft = [] := by
  by_contra hc
  have := h.busy_iff_left.2 hc
  simp [hb] at this

/-- A canonical framebuffer listing inside the buffer keeps the invariant of a block that is not BUSY (R59). -/
theorem Inv_withFb {s : State} (h : s.Inv) (hb : s.busy = false) {m : Memory} (hw : m.wf)
    (hl : m.below s.params.fbBytes) : (s.withFb m).Inv := by
  constructor
  case fb_wf => exact hw
  case fb_below => exact hl
  case left_suffix =>
    show s.sinkLeft <:+ _
    rw [sinkLeft_nil_of_Inv h hb]
    exact List.nil_suffix
  all_goals first
    | exact h.params_legal | exact h.src_wf | exact h.src_below | exact h.rate_pos
    | exact h.each_eq | exact h.start_le_clock | exact h.pending_start | exact h.next_after_start
    | exact h.status_code | exact h.fault_cause | exact h.cmdBuf_partial
    | exact h.busy_iff_left | exact h.busy_alone | exact h.epoch_lt

/-- A plot list keeps the invariant (R59). -/
theorem Inv_plotAll {s : State} (h : s.Inv) (hb : s.busy = false) (op : CombineOp) (ps : List Point) : (s.plotAll op ps).Inv := by
  rw [plotAll_frame]
  exact Inv_withFb h hb (plotAll_wf ps h.fb_wf) (plotAll_below ps h.fb_below)

/-- Fault entry keeps the invariant of a block that is not BUSY (R226). -/
theorem Inv_raiseFault {s : State} (h : s.Inv) (hb : s.busy = false) (c : FaultCause) : (s.raiseFault c).Inv := by
  apply Inv_withResp
  constructor
  case fault_cause => cases c <;> simp [State.withFault, FaultCause.code]
  case busy_alone =>
    intro hh
    rw [show (s.withFault c).busy = s.busy from rfl, hb] at hh
    cases hh
  case left_suffix => exact h.left_suffix
  all_goals first
    | exact h.params_legal | exact h.fb_wf | exact h.fb_below | exact h.src_wf | exact h.src_below | exact h.rate_pos
    | exact h.each_eq | exact h.start_le_clock | exact h.pending_start | exact h.next_after_start
    | exact h.status_code | exact h.cmdBuf_partial | exact h.busy_iff_left | exact h.epoch_lt

/-- RunPlots keeps the invariant (R102). -/
theorem Inv_runPlots {s : State} (h : s.Inv) (hb : s.busy = false) (op : CombineOp) (ps : List Point) : (s.runPlots op ps).Inv := by
  unfold State.runPlots
  split
  · exact Inv_raiseFault h hb _
  · exact Inv_withResp (Inv_plotAll h hb _ _) _ _

end Sys2Proof.Machine
end

