-- ==== Sys2Proof/Laws/PerInstr.lean ====
section
/-! SUPPORT. Facts about every command as syntax, one lemma per constructor. -/

namespace Sys2Proof.Laws.EncodeLength

/-- R70, R78, R84: the words of a command are as many as its header word says. -/
def Statement (i : Instr) : Prop :=
  ∃ h ws, encode i = h :: ws ∧ commandLength h = ws.length + 1

theorem of_header (o : Opcode) (c : BitVec 2) (m : BitVec 4) (ws : List Word) (h : o.words = ws.length + 1) :
    commandLength (encodeHeader o c m) = ws.length + 1 := by
  simp [commandLength, h]

theorem setpx (op : CombineOp) (x y : Word) : Statement (.setpx op x y) :=
  ⟨_, _, rfl, of_header .setpx _ _ _ rfl⟩
theorem getpx (x y : Word) : Statement (.getpx x y) := ⟨_, _, rfl, of_header .getpx _ _ _ rfl⟩
theorem fill (op : CombineOp) : Statement (.fill op) := ⟨_, _, rfl, of_header .fill _ _ _ rfl⟩
theorem line (op : CombineOp) (x0 y0 x1 y1 : Word) : Statement (.line op x0 y0 x1 y1) :=
  ⟨_, _, rfl, of_header .line _ _ _ rfl⟩
theorem hline (op : CombineOp) (x y w : Word) : Statement (.hline op x y w) :=
  ⟨_, _, rfl, of_header .hline _ _ _ rfl⟩
theorem vline (op : CombineOp) (x y ht : Word) : Statement (.vline op x y ht) :=
  ⟨_, _, rfl, of_header .vline _ _ _ rfl⟩
theorem circle (op : CombineOp) (x0 y0 : Word) (r : Byte) : Statement (.circle op x0 y0 r) :=
  ⟨_, _, rfl, of_header .circle _ _ _ rfl⟩
theorem circh (op : CombineOp) (msk : BitVec 4) (x0 y0 : Word) (r : Byte) : Statement (.circh op msk x0 y0 r) :=
  ⟨_, _, rfl, of_header .circh _ _ _ rfl⟩
theorem fcirc (op : CombineOp) (x0 y0 : Word) (r : Byte) : Statement (.fcirc op x0 y0 r) :=
  ⟨_, _, rfl, of_header .fcirc _ _ _ rfl⟩
theorem fcirch (op : CombineOp) (msk : BitVec 2) (x0 y0 : Word) (r : Byte) (delta : Word) :
    Statement (.fcirch op msk x0 y0 r delta) :=
  ⟨_, _, rfl, of_header .fcirch _ _ _ rfl⟩
theorem blit (op : CombineOp) (x y alo ahi w ht : Word) : Statement (.blit op x y alo ahi w ht) :=
  ⟨_, _, rfl, of_header .blit _ _ _ rfl⟩
theorem slowblit (op : CombineOp) (x y alo ahi w ht : Word) : Statement (.slowblit op x y alo ahi w ht) :=
  ⟨_, _, rfl, of_header .slowblit _ _ _ rfl⟩
theorem setfps (rate : Byte) : Statement (.setfps rate) := ⟨_, _, rfl, of_header .setfps _ _ _ rfl⟩
theorem nextframe : Statement .nextframe := ⟨_, _, rfl, of_header .nextframe _ _ _ rfl⟩
theorem cpuload : Statement .cpuload := ⟨_, _, rfl, of_header .cpuload _ _ _ rfl⟩
theorem everyx (n : Byte) : Statement (.everyx n) := ⟨_, _, rfl, of_header .everyx _ _ _ rfl⟩
theorem present : Statement .present := ⟨_, _, rfl, of_header .present _ _ _ rfl⟩

end Sys2Proof.Laws.EncodeLength
end

