-- ==== Sys2Proof/Laws/Step.lean ====
section
/-! SUPPORT. What a step does, by the act that comes next and by what the decoder says of the words in CMD_BUF. -/

namespace Sys2Proof.Machine

/-- Every command ends in a next state. -/
theorem exec_next (i : Instr) (s : State) : ∃ t, exec i s = .next t := by
  cases i <;> exact ⟨_, rfl⟩

/-- R227: every command in the fault state. -/
theorem exec_faulted (i : Instr) {s : State} (h : s.faulted = true) : exec i s = .next s.respondFaulted := by
  cases i <;> simp only [exec] <;> exact command_faulted h _

/-- The first act that does not wait goes past those a BUSY block holds back (R202). -/
theorem nextInput_append {busy : Bool} {held rest : List Input} {i : Input}
    (h : if busy then ∀ j ∈ held, j.heldBack = true else held = []) (hi : i.heldBack = false) :
    nextInput busy (held ++ i :: rest) = some (i, held ++ rest) := by
  cases busy with
  | false =>
    have : held = [] := by simpa using h
    subst this
    exact nextInput_head (.inl rfl)
  | true =>
    replace h : ∀ j ∈ held, j.heldBack = true := by simpa using h
    induction held with
    | nil => exact nextInput_head (.inr hi)
    | cons j held ih =>
      rw [List.cons_append, nextInput_held (h j (by simp)), ih fun k hk => h k (by simp [hk])]
      rfl

/-- What the next act can be: it was among the acts to come, and what waits still waits, in its order. -/
theorem nextInput_some {busy : Bool} {is rest : List Input} {i : Input} (h : nextInput busy is = some (i, rest)) :
    ∃ pre post, is = pre ++ i :: post ∧ rest = pre ++ post ∧
      (busy = true → i.heldBack = false ∧ ∀ j ∈ pre, j.heldBack = true) ∧ (busy = false → pre = []) := by
  induction is generalizing rest with
  | nil => simp [nextInput] at h
  | cons j js ih =>
    unfold nextInput at h
    split at h
    · rename_i hb
      simp only [Bool.and_eq_true] at hb
      split at h
      · rename_i k more hk
        cases h
        obtain ⟨pre, post, rfl, rfl, h1, -⟩ := ih hk
        refine ⟨j :: pre, post, rfl, rfl, fun hbusy => ⟨(h1 hbusy).1, ?_⟩, fun hf => ?_⟩
        · intro l hl
          rcases List.mem_cons.1 hl with rfl | hl
          · exact hb.2
          · exact (h1 hbusy).2 l hl
        · simp [hb.1] at hf
      · cases h
    · rename_i hb
      cases h
      refine ⟨[], js, rfl, rfl, fun hbusy => ⟨?_, by simp⟩, fun _ => rfl⟩
      simpa [hbusy] using hb

/-- A word the port takes: R71 and R83, by what the decoder says. -/
theorem step_word {s : State} {w : Word} {rest : List Input} (hb : s.busy = false) (hi : s.inputs = .word w :: rest) :
    step s =
      match decode (s.cmdBuf ++ [w]) with
      | .ok (i, _) => exec i ((s.withInputs rest).withCmdBuf [])
      | .error .incomplete => .next ((s.withInputs rest).withCmdBuf (s.cmdBuf ++ [w]))
      | .error .illegalOpcode => .next (((s.withInputs rest).withCmdBuf []).refuse .illegalOpcode)
      | .error .reservedField => .next (((s.withInputs rest).withCmdBuf []).refuse .reservedField)
      | .error .operandRange => .next (((s.withInputs rest).withCmdBuf []).refuse .operandRange) := by
  unfold step
  rw [hi, nextInput_head (.inl hb)]
  simp only [State.assemble, withInputs_cmdBuf]
  rcases decode (s.cmdBuf ++ [w]) with e | ⟨i, tl⟩
  · cases e <;> rfl
  · rfl

end Sys2Proof.Machine
end

