-- ==== Sys2Proof/Tests/Slice0.lean ====
section
/-! SUPPORT. The model's own tests: the well-formedness smoke test, words decoded, one step at a time on small states (expected values from spec/95_test_vectors.md and the rules' own examples), and one witness for each statement that has hypotheses. -/

open Sys2Proof Sys2Proof.Machine Sys2Proof.Statements

namespace Sys2Proof.Tests

/-! ## Well-formedness: one ill-formed command for each check -/

theorem test_wf_refuses_rate_zero : (Instr.setfps 0).wf = false := by decide
theorem test_wf_refuses_n_zero : (Instr.everyx 0).wf = false := by decide
theorem test_wf_accepts : (Instr.setfps 255).wf = true ∧ (Instr.everyx 1).wf = true ∧ Instr.present.wf = true := by decide

/-! ## Decoding: a word for every constructor, written out from R72, R73, R78 and R79 -/

theorem test_decode_setpx : decode [0b0000000100000001, 3, 10] = .ok (.setpx .set 3 10, []) := by decide
theorem test_decode_getpx : decode [0b0000000000000010, 3, 10] = .ok (.getpx 3 10, []) := by decide
theorem test_decode_fill : decode [0b0000001000000011] = .ok (.fill .invert, []) := by decide
theorem test_decode_line : decode [0b0000000000010000, 1, 2, 3, 4] = .ok (.line .clear 1 2 3 4, []) := by decide
theorem test_decode_hline : decode [0b0000000100010001, 0xFFFD, 10, 8] = .ok (.hline .set 0xFFFD 10 8, []) := by decide
theorem test_decode_vline : decode [0b0000001000010010, 0, 1, 64] = .ok (.vline .invert 0 1 64, []) := by decide
theorem test_decode_circle : decode [0b0000000100011000, 10, 11, 255] = .ok (.circle .set 10 11 255, []) := by decide
theorem test_decode_circh : decode [0b0010010100011001, 10, 11, 5] = .ok (.circh .set 0b1001 10 11 5, []) := by decide
theorem test_decode_fcirc : decode [0b0000000000011010, 10, 11, 5] = .ok (.fcirc .clear 10 11 5, []) := by decide
theorem test_decode_fcirch : decode [0b0000100100011011, 10, 11, 3, 0xFFF9] = .ok (.fcirch .set 0b10 10 11 3 0xFFF9, []) := by
  decide
theorem test_decode_blit : decode [0b0000000100100000, 1, 2, 3, 4, 5, 6] = .ok (.blit .set 1 2 3 4 5 6, []) := by decide
theorem test_decode_slowblit : decode [0b0000001000100001, 1, 2, 3, 4, 5, 6] = .ok (.slowblit .invert 1 2 3 4 5 6, []) := by
  decide
theorem test_decode_setfps : decode [0b0000000000110000, 30] = .ok (.setfps 30, []) := by decide
theorem test_decode_nextframe : decode [0b0000000000110001] = .ok (.nextframe, []) := by decide
theorem test_decode_cpuload : decode [0b0000000000110010] = .ok (.cpuload, []) := by decide
theorem test_decode_everyx : decode [0b0000000000110011, 4] = .ok (.everyx 4, []) := by decide
theorem test_decode_present : decode [0b0000000000111000] = .ok (.present, []) := by decide

/-- R80, R75 to R77, R82, R84. -/
theorem test_decode_refuses :
    decode [0x0000] = .error .illegalOpcode ∧ decode [0x0301, 3, 10] = .error .reservedField ∧
      decode [0x0102, 3, 10] = .error .reservedField ∧ decode [0x0403] = .error .reservedField ∧
      decode [0x4003] = .error .reservedField ∧ decode [0x111B, 10, 10, 3, 4] = .error .reservedField ∧
      decode [0x0118, 10, 10, 0x0102] = .error .operandRange ∧ decode [0x0033, 0x0103] = .error .operandRange ∧
      decode [0x0101, 3] = .error .incomplete := by
  decide

/-- The opcode table's numbering: the first word in bits 15..0, the next above it. -/
theorem test_table_word :
    decodeTableWord 48 0x000A00030101 = some (.setpx .set 3 10) ∧ decodeTableWord 16 0x0038 = some .present ∧
      decodeTableWord 16 0x0030 = some (.setfps 0) ∧ decodeTableWord 16 0x0000 = none := by
  decide

/-! ## One step -/

/-- The block at reset on an asset memory of four bytes, the image of R161, with some framebuffer bytes written. -/
def block (safe : Bool) (fb : Memory) : State :=
  { State.reset with
    params := ⟨128, 64, safe, 1, 4⟩
    src := [(0, 0x81), (1, 0xFF), (2, 0x01), (3, 0x80)]
    fb := fb }

/-- The framebuffer listing, the status and the result after a command. -/
def after (i : Instr) (s : State) : Option (Memory × BitVec 8 × DWord) :=
  match exec i s with
  | .next t => some (t.fb, t.respStatus, t.respResult)
  | .fault _ => none
  | .refused _ => none

/-- B1.1, B1.6. -/
theorem test_setpx : after (.setpx .set 3 10) (block true [(131, 0)]) = some ([(131, 0x04)], 0x00, 0) := by decide
theorem test_setpx_unsafe : after (.setpx .set 0xFFFF 0) (block false []) = some ([], 0x04, 1) := by decide
/-- B1.9, B1.10. -/
theorem test_getpx : after (.getpx 3 10) (block true [(131, 0x04)]) = some ([(131, 0x04)], 0x00, 1) := by decide
theorem test_getpx_off : after (.getpx 3 11) (block true [(131, 0x04)]) = some ([(131, 0x04)], 0x00, 0) := by decide
/-- B1.16 and B1.17, on a framebuffer of two columns and one band (R7). -/
theorem test_fill_invert :
    after (.fill .invert) { block true [(0, 0x5A), (1, 0x5A)] with params := ⟨2, 8, true, 1, 4⟩ } =
      some ([(0, 0xA5), (1, 0xA5)], 0x00, 0) := by decide
/-- B2.3, B2.9. -/
theorem test_line_steep :
    after (.line .set 0 0 2 5) (block true [(0, 0), (1, 0), (2, 0)]) =
      some ([(0, 0x03), (1, 0x0C), (2, 0x30)], 0x00, 0) := by decide
theorem test_line_unsafe : after (.line .set 0xFFFE 0 2 0) (block false [(0, 0)]) = some ([(0, 0)], 0x04, 1) := by decide
/-- B2.10, B2.11, B2.14. -/
theorem test_hline_left :
    after (.hline .set 0xFFFD 10 8) (block false [(128, 0), (129, 0), (130, 0), (131, 0), (132, 0), (133, 0)]) =
      some ([(128, 0x04), (129, 0x04), (130, 0x04), (131, 0x04), (132, 0x04), (133, 0)], 0x00, 0) := by decide
theorem test_hline_right :
    after (.hline .set 126 0 100) (block true [(126, 0), (127, 0), (128, 0)]) =
      some ([(126, 0x01), (127, 0x01), (128, 0)], 0x00, 0) := by decide
/-- B2.15, B2.17. -/
theorem test_vline :
    after (.vline .set 5 0xFFFE 13) (block true [(5, 0), (133, 0)]) = some ([(5, 0xFF), (133, 0x07)], 0x00, 0) := by decide
theorem test_vline_bottom : after (.vline .set 0 60 100) (block true [(896, 0)]) = some ([(896, 0xF0)], 0x00, 0) := by
  decide
set_option maxRecDepth 8000 in
/-- B3.2, B3.1. -/
theorem test_circle_invert :
    after (.circle .invert 10 10 2) (block true [(136, 0), (137, 0), (138, 0), (139, 0), (140, 0)]) =
      some ([(136, 0x04), (137, 0), (138, 0x11), (139, 0), (140, 0x04)], 0x00, 0) := by decide
set_option maxRecDepth 8000 in
theorem test_circle_set :
    after (.circle .set 10 10 2) (block true [(136, 0), (137, 0), (138, 0), (139, 0), (140, 0)]) =
      some ([(136, 0x0E), (137, 0x11), (138, 0x11), (139, 0x11), (140, 0x0E)], 0x00, 0) := by decide
/-- B3.9. -/
theorem test_circh :
    after (.circh .set 2 10 10 5) (block true [(11, 0), (12, 0), (13, 0), (14, 0), (143, 0)]) =
      some ([(11, 0x20), (12, 0x20), (13, 0x40), (14, 0x80), (143, 0x03)], 0x00, 0) := by decide
set_option maxRecDepth 8000 in
/-- B3.15, B3.17. -/
theorem test_fcirc_invert :
    after (.fcirc .invert 10 10 2) (block true [(136, 0), (137, 0), (138, 0), (139, 0), (140, 0)]) =
      some ([(136, 0), (137, 0), (138, 0x1F), (139, 0), (140, 0)], 0x00, 0) := by decide
theorem test_fcirc_clamped :
    after (.fcirc .set 0 0 2) (block false [(0, 0), (1, 0), (2, 0)]) = some ([(0, 0x07), (1, 0x07), (2, 0x03)], 0x00, 0) := by
  decide
set_option maxRecDepth 8000 in
/-- B3.19, B3.20. -/
theorem test_fcirch :
    after (.fcirch .set 2 10 10 3 0) (block true [(9, 0), (135, 0), (136, 0), (137, 0)]) =
      some ([(9, 0x80), (135, 0x0E), (136, 0x1F), (137, 0x3F)], 0x00, 0) := by decide
theorem test_fcirch_negative_delta : after (.fcirch .set 1 10 10 3 0xFFF9) (block true []) = some ([], 0x00, 0) := by decide
/-- B4.4, B4.13. -/
theorem test_blit :
    after (.blit .set 4 0xFFFD 0 0 2 16) (block true [(4, 0), (5, 0), (132, 0), (133, 0)]) =
      some ([(4, 0x30), (5, 0x1F), (132, 0), (133, 0x10)], 0x00, 0) := by decide
theorem test_blit_source_range : after (.blit .set 4 3 1 0 2 16) (block true []) = some ([], 0x04, 2) := by decide
/-- B4.17, B4.23. -/
theorem test_slowblit :
    after (.slowblit .set 0 0 0 0 10 2)
        { block true [(0, 0), (1, 0), (8, 0), (9, 0)] with src := [(0, 0xC0), (1, 0x40), (2, 0x00), (3, 0x80)] } =
      some ([(0, 0x01), (1, 0x01), (8, 0x02), (9, 0x01)], 0x00, 0) := by decide
theorem test_slowblit_order :
    after (.slowblit .set 0xFFFF 0 0 0 8 2) { block false [] with params := ⟨128, 64, false, 1, 1⟩ } =
      some ([], 0x04, 2) := by decide

/-- The scheduler registers after a command: rate, period, count, last start, next start, duration, pending; then the result. -/
def schedAfter (i : Instr) (s : State) : Option (List Nat) :=
  match exec i s with
  | .next t =>
    some [t.frameRate.toNat, t.eachFrameMs.toNat, t.frameCount.toNat, t.lastFrameStart.toNat, t.nextFrameStart.toNat,
      t.lastFrameDuration.toNat, t.postRenderPending.toNat, t.respStatus.toNat, t.respResult.toNat]
  | .fault _ => none
  | .refused _ => none

/-- The block in a window that opened at `last`, at a clock value. -/
def inWindow (last next now : DWord) : State :=
  { block true [] with
    lastFrameStart := last
    clockLast := last
    nextFrameStart := next
    postRenderPending := true
    clock := now }

/-- R182, B5.16. -/
theorem test_setfps : schedAfter (.setfps 30) (inWindow 0 16 1) = some [30, 33, 0, 0, 16, 0, 1, 0, 0] := by decide
theorem test_setfps_zero : schedAfter (.setfps 0) (inWindow 0 16 1) = some [60, 16, 0, 0, 16, 0, 1, 3, 0] := by decide
/-- B5.5 at t = 116, B5.8 at t = 14. -/
theorem test_nextframe_reanchors :
    schedAfter .nextframe (inWindow 16 32 116) = some [60, 16, 1, 116, 132, 100, 1, 0, 1] := by decide
theorem test_nextframe_waits :
    (match exec .nextframe (inWindow 0 16 14) with
      | .next t => decide (t.respResult = 0 ∧ t.lastFrameDuration = 14 ∧ t.frameCount = 1 ∧ t.out = [.idleReq])
      | _ => false) = true := by decide
/-- R190's example. -/
theorem test_cpuload : after .cpuload { block true [] with lastFrameDuration := 8 } = some ([], 0x00, 50) := by decide
theorem test_cpuload_saturated :
    after .cpuload { block true [] with lastFrameDuration := 65535, frameRate := 255, eachFrameMs := 3 } =
      some ([], 0x00, 2184500) := by decide
/-- B5.14. -/
theorem test_everyx : after (.everyx 4) { block true [] with frameCount := 8 } = some ([], 0x00, 1) := by decide
theorem test_everyx_not : after (.everyx 3) { block true [] with frameCount := 8 } = some ([], 0x00, 0) := by decide
/-- R201: the bytes in index order; the response comes with the last byte. -/
theorem test_present :
    (match exec .present { block true [(0, 0x12), (1, 0x34)] with params := ⟨2, 8, true, 1, 4⟩ } with
      | .next t => decide (t.busy = true ∧ t.out = [.present [0x12, 0x34]] ∧ t.sinkLeft = [0x12, 0x34])
      | _ => false) = true := by decide
theorem test_sink_takes_last :
    { block true [] with busy := true, sinkLeft := [0x34], respResult := 7 }.sinkTake = block true [] := by decide

/-- The host's question: the very next step after reset runs the table word. -/
theorem test_fetch_setfps :
    (match step (State.reset.withFetchWord 32 0x001E0030) with
      | .next t => decide (t.frameRate = 30 ∧ t.eachFrameMs = 33 ∧ t.cmdBuf = [])
      | _ => false) = true := by decide
theorem test_fetch_zero_operand :
    (match step (State.reset.withFetchWord 16 0x0033) with
      | .next t => decide (t.respStatus = 0x03 ∧ t.respResult = 0)
      | _ => false) = true := by decide

/-! ## Witnesses: for each statement with hypotheses, a state and operands that meet all of them -/

/-- A sound block at its default size, one pixel on. -/
def sound : State := block true [(131, 0x04)]

/-- The block that does not check coordinates. -/
def unsafeBlock : State := block false []

/-- The block in the fault state. -/
def faultedBlock : State := faultedWith (block false []) 0x01

/-- A state about to take a word after the words in CMD_BUF. -/
def sending (s : State) (buf : List Word) (w : Word) : State := { s with cmdBuf := buf, inputs := [.word w] }

theorem sending_gives (s : State) (buf : List Word) (w : Word) (h : s.busy = false) :
    NextWordGives (sending s buf w) (buf ++ [w]) [] := ⟨h, w, rfl, rfl⟩

theorem sound_legal : sound.params.Legal := by decide

theorem sound_inv : sound.Inv := by
  constructor <;> first | decide | exact trivial

/-- The invariant also holds of a block in an open window, of a faulted one and of one that is sending its buffer. -/
theorem inWindow_inv : (inWindow 0 16 20).Inv := by
  constructor <;> first | decide | exact trivial

theorem faulted_inv : faultedBlock.Inv := by
  constructor <;> first | decide | exact trivial

/-- A block of two bytes with the last one still to be sent. -/
def presenting : State :=
  { block true [(0, 0x12), (1, 0x34)] with
    params := ⟨2, 8, true, 1, 4⟩
    busy := true
    sinkLeft := [0x34]
    inputs := [.word 0x0003, .asset 0 0, .clock 9] }

theorem presenting_inv : presenting.Inv := by
  constructor <;> first | decide | exact trivial

theorem witness_ResetActRestoresReset :
    { sound with inputs := [.reset] }.inputs = [] ++ Input.reset :: [] ∧ sound.busy = false ∧
      { presenting with inputs := [.word 3, .asset 0 0, .reset, .clock 1] }.inputs =
        [.word 3, .asset 0 0] ++ Input.reset :: [.clock 1] ∧
      presenting.busy = true ∧ ∀ i ∈ [Input.word 3, .asset 0 0], i.heldBack = true := by
  decide

theorem witness_FaultedBlockAnswersFaulted :
    (sending faultedBlock [] 0x0003).faulted = true ∧
    NextWordGives (sending faultedBlock [] 0x0003) [0x0003] [] ∧ decode [0x0003] ≠ .error .incomplete ∧
    NextWordGives (sending faultedBlock [] 0x0000) [0x0000] [] ∧ decode [0x0000] ≠ .error .incomplete ∧
    NextWordGives (sending faultedBlock [0x0101] 3) [0x0101, 3] [] ∧ decode [0x0101, 3] = .error .incomplete ∧
    ∃ t, step (sending faultedBlock [] 0x0003) = .next t :=
  ⟨rfl, sending_gives _ [] _ rfl, by decide, sending_gives _ [] _ rfl, by decide,
    sending_gives _ [0x0101] _ rfl, by decide, _, rfl⟩

theorem witness_FaultEntryWritesNothingElse :
    unsafeBlock.faulted = false ∧
      ∃ t, exec (.setpx .set 0xFFFF 0) unsafeBlock = .next t ∧ t.faulted = true :=
  ⟨rfl, _, rfl, by decide⟩

theorem witness_OneFaultInOrder :
    sound.faulted = false ∧
      (∃ t, exec (.slowblit .set 0 0 1 0 8 4) sound = .next t ∧ t.faulted = true) ∧
      ¬ extentInside sound (address 1 0) ((8 + 7) / 8 * 4) ∧
      { sound with clockLast := 1 }.clock.toNat < { sound with clockLast := 1 }.clockLast.toNat :=
  ⟨rfl, ⟨_, rfl, by decide⟩, by unfold extentInside; decide, by decide⟩

/-- One command for each status of R220 that `exec` gives, and PRESENT's start. -/
theorem witness_CommandsEndWithOneStatus :
    (after .cpuload sound).map (·.2.1) = some 0x00 ∧ (after (.setfps 0) sound).map (·.2.1) = some 0x03 ∧
      (after .present faultedBlock).map (·.2.1) = some 0x04 ∧ (∃ t, exec .present sound = .next t) ∧
      sound.faulted = false :=
  ⟨by decide, by decide, by decide, exec_next .present sound, rfl⟩

/-- The ends of every range of R80 are unassigned, and their neighbours are not. -/
theorem test_ends_of_illegal_ranges :
    (∀ h ∈ ([0x00, 0x04, 0x0F, 0x13, 0x17, 0x1C, 0x1F, 0x22, 0x2F, 0x34, 0x37, 0x39, 0xFF] : List (BitVec 8)),
      opcodeOf h = none) ∧
    ∀ h ∈ ([0x01, 0x03, 0x10, 0x12, 0x18, 0x1B, 0x20, 0x21, 0x30, 0x33, 0x38] : List (BitVec 8)),
      (opcodeOf h).isSome = true := by
  decide

theorem witness_IllegalOpcodeIsOneWord :
    decode [0x00FF] = .error .illegalOpcode ∧ sound.faulted = false ∧
      NextWordGives (sending sound [] 0x00FF) [0x00FF] [] :=
  ⟨by decide, rfl, sending_gives _ [] _ rfl⟩

theorem witness_ReservedFieldRefused :
    (0x0201 : Word).toNat % 256 = Opcode.setpx.code.toNat ∧ ([3, 10] : List Word).length + 1 = Opcode.setpx.words ∧
      headerMatches .setpx 0x0201 ∧ ¬ headerMatches .setpx 0x0301 ∧ ¬ headerMatches .setpx 0x4101 ∧
      headerMatches .circh 0x3E19 ∧ ¬ headerMatches .circh 0x3F19 ∧
      headerMatches .fcirch 0x0E1B ∧ ¬ headerMatches .fcirch 0x121B ∧ ¬ headerMatches .nextframe 0x0131 ∧
      (sending sound [0x0301, 3] 10).faulted = false ∧
      NextWordGives (sending sound [0x0301, 3] 10) [0x0301, 3, 10] [] := by
  refine ⟨by decide, by decide, ?_, ?_, ?_, ?_, ?_, ?_, ?_, ?_, rfl, sending_gives _ [0x0301, 3] _ rfl⟩ <;>
    unfold headerMatches <;> decide

theorem witness_OperandRangeRefused :
    ((0x0118 : Word).toNat % 256 = Opcode.circle.code.toNat ∧ ([10, 10, 0x00FF] : List Word).length + 1 = Opcode.circle.words ∧
      ∀ k w, u8Place .circle = some k → ([10, 10, 0x00FF] : List Word)[k]? = some w → w.toNat < 256) ∧
    (∃ t, exec (.setfps 1) sound = .next t) ∧ Instr.setfps 1 ≠ .present ∧
    (sending sound [0x0118, 10, 10] 0x0100).faulted = false ∧
      (0x0118 : Word).toNat % 256 = Opcode.circle.code.toNat ∧ headerMatches .circle 0x0118 ∧
      ([10, 10, 0x0100] : List Word).length + 1 = Opcode.circle.words ∧ u8Place .circle = some 2 ∧
      ([10, 10, 0x0100] : List Word)[2]? = some 0x0100 ∧ 256 ≤ (0x0100 : Word).toNat ∧
      NextWordGives (sending sound [0x0118, 10, 10] 0x0100) [0x0118, 10, 10, 0x0100] [] ∧
      NextWordGives (sending sound [0x0030] 0) [0x0030, 0x0000] [] ∧
      NextWordGives (sending sound [0x0033] 0) [0x0033, 0x0000] [] :=
  ⟨⟨by decide, by decide, fun k w hk hw => by cases hk; cases hw; decide⟩, ⟨_, rfl⟩, by decide,
    rfl, by decide, by unfold headerMatches; decide, by decide, by decide, by decide, by decide,
    sending_gives _ [0x0118, 10, 10] _ rfl, sending_gives _ [0x0030] _ rfl, sending_gives _ [0x0033] _ rfl⟩

theorem witness_HalfSentCommandWaits :
    (0x0101 : Word).toNat % 256 = Opcode.setpx.code.toNat ∧ ([3] : List Word).length + 1 < Opcode.setpx.words ∧
      NextWordGives (sending sound [0x0101] 3) [0x0101, 3] [] :=
  ⟨by decide, by decide, sending_gives _ [0x0101] _ rfl⟩

theorem witness_StepRunsDecodedCommand :
    NextWordGives (sending sound [0x0101, 3] 10) [0x0101, 3, 10] [] ∧
      decode [0x0101, 3, 10] = .ok (.setpx .set 3 10, []) :=
  ⟨sending_gives _ [0x0101, 3] _ rfl, by decide⟩

theorem witness_HostWritesRunCommand :
    let s := { sound with inputs := [.word 0x0101, .word 3, .word 10, .clock 5] }
    s.busy = false ∧ s.cmdBuf = [] ∧ s.inputs = (encode (.setpx .set 3 10)).map Input.word ++ [.clock 5] := by
  decide

theorem witness_EncodeOfDecode : decode [0x0101, 3, 10, 0x0038] = .ok (.setpx .set 3 10, [0x0038]) := by decide

theorem witness_StepKeepsInv :
    sound.Inv ∧ (∃ t, step sound = .next t) ∧ presenting.Inv ∧ (∃ t, step presenting = .next t) ∧
      faultedBlock.Inv ∧ (inWindow 0 16 20).Inv :=
  ⟨sound_inv, ⟨_, rfl⟩, presenting_inv, ⟨_, rfl⟩, faulted_inv, inWindow_inv⟩

theorem witness_CommandsTouchOnlyTheirState :
    (∃ t, exec .nextframe sound = .next t) ∧ writesFb .nextframe = false ∧ sound.params.fbBytes ≤ 1024 ∧
      (∃ t, exec (.setpx .set 3 10) sound = .next t) ∧ (∀ r, Instr.setpx .set 3 10 ≠ .setfps r) ∧
      Instr.setpx .set 3 10 ≠ .nextframe ∧ Instr.setpx .set 3 10 ≠ .present ∧
      (∀ x y, Instr.setpx .set 3 10 ≠ .getpx x y) :=
  ⟨⟨_, rfl⟩, rfl, by decide, ⟨_, rfl⟩, by simp, by simp, by simp, by simp⟩

theorem witness_OnlyNextframeSamplesClock : (∃ t, exec .cpuload sound = .next t) ∧ Instr.cpuload ≠ .nextframe :=
  ⟨⟨_, rfl⟩, by decide⟩

theorem witness_RendererAndSchedulerIndependent :
    (∃ t, exec .present sound = .next t) ∧ isScheduler .present = false ∧
      (∃ t, exec .nextframe sound = .next t) ∧ isScheduler .nextframe = true :=
  ⟨⟨_, rfl⟩, rfl, ⟨_, rfl⟩, rfl⟩

theorem witness_PlotListPixels :
    sound.params.Legal ∧ inRange sound.params (0, 0) = true ∧ inRange sound.params (127, 63) = true ∧
      [((0 : Int), (0 : Int)), (1, 1)].Perm [(1, 1), (0, 0)] :=
  ⟨sound_legal, by decide, by decide, .swap _ _ _⟩

theorem witness_PlottingCommandsDraw :
    plotList (.line .set 0 0 1 0) = some (.set, linePoints 0 0 1 0) ∧ sound.faulted = false ∧ sound.params.Legal ∧
      sound.params.safeMode = true ∧
      unsafeBlock.faulted = false ∧ unsafeBlock.params.Legal ∧ (∀ q ∈ linePoints 0 0 1 0, inRange unsafeBlock.params q = true) :=
  ⟨rfl, rfl, sound_legal, rfl, rfl, by decide, by decide⟩

theorem witness_PlottingCommandsFault :
    plotList (.line .set 0 0 0xFFFF 0) = some (.set, linePoints 0 0 (-1) 0) ∧ unsafeBlock.faulted = false ∧
      unsafeBlock.params.safeMode = false ∧
      ∃ q ∈ linePoints 0 0 (-1) 0, inRange unsafeBlock.params q = false :=
  ⟨rfl, rfl, rfl, (-1, 0), by decide, by decide⟩

/-- The corners of the buffer, and the points next to them outside. -/
theorem witness_SetpxIsOnePlot :
    sound.faulted = false ∧ sound.params.Legal ∧
      inRange sound.params ((0 : Word).toInt, (0 : Word).toInt) = true ∧
      inRange sound.params ((127 : Word).toInt, (63 : Word).toInt) = true ∧
      inRange sound.params ((128 : Word).toInt, (0 : Word).toInt) = false ∧
      inRange sound.params ((0 : Word).toInt, (0xFFFF : Word).toInt) = false :=
  ⟨rfl, sound_legal, by decide, by decide, by decide, by decide⟩

theorem witness_GetpxReadsPixel :
    sound.faulted = false ∧ inRange sound.params ((3 : Word).toInt, (10 : Word).toInt) = true ∧
      inRange sound.params ((0xFFFF : Word).toInt, (0 : Word).toInt) = false := by
  decide

theorem witness_SetpxThenGetpx :
    sound.faulted = false ∧ sound.params.Legal ∧ inRange sound.params ((3 : Word).toInt, (10 : Word).toInt) = true := by
  decide

theorem witness_FillCombinesEveryByte : sound.faulted = false ∧ 1023 < sound.params.fbBytes ∧ ¬ 1024 < sound.params.fbBytes := by
  decide

theorem witness_ClearThenGetpxIsOff :
    sound.faulted = false ∧ sound.params.Legal ∧ inRange sound.params ((127 : Word).toInt, (63 : Word).toInt) = true := by
  decide

theorem witness_LinePointsExact :
    ¬ ((2 - 0 : Int).natAbs > (5 - 0 : Int).natAbs) ∧ (5 - 0 : Int).natAbs > (2 - 0 : Int).natAbs := by
  decide

/-- B2.1, B2.3, B2.5, B2.6: the minor coordinates of the vectors' points, in the closed form. -/
theorem test_minorAt :
    (List.range 6).map (minorAt 0 0 5 2) = [0, 0, 1, 1, 2, 2] ∧ (List.range 6).map (minorAt 5 2 0 0) = [0, 0, 1, 1, 2, 2] ∧
      (List.range 5).map (minorAt 0 3 4 0) = [3, 2, 2, 1, 0] ∧ minorAt 7 7 7 7 0 = 7 := by
  decide

theorem witness_FastRunsDrawClippedRun : sound.faulted = false ∧ sound.params.Legal ∧
    unsafeBlock.faulted = false ∧ unsafeBlock.params.Legal := by
  decide

theorem witness_HlineIsSetpxSequence :
    sound.faulted = false ∧ sound.params.Legal ∧ sound.params.safeMode = true ∧
      unsafeBlock.faulted = false ∧ unsafeBlock.params.Legal ∧
      ∀ k < (2 : Word).toNat, inRange unsafeBlock.params ((126 : Word).toInt + (k : Int), (0 : Word).toInt) = true := by
  decide

theorem witness_VlineIsSetpxSequence :
    sound.faulted = false ∧ sound.params.Legal ∧ sound.params.safeMode = true ∧
      unsafeBlock.faulted = false ∧ unsafeBlock.params.Legal ∧
      ∀ k < (2 : Word).toNat, inRange unsafeBlock.params ((0 : Word).toInt, (62 : Word).toInt + (k : Int)) = true := by
  decide

/-- R144's circle of radius 2 (axis points once, diagonal points twice), and R145's upper right arc of radius 5, as counts. -/
theorem test_circle_counts :
    circleCount 2 (0, 2) = 1 ∧ circleCount 2 (-2, 0) = 1 ∧ circleCount 2 (1, -2) = 2 ∧ circleCount 2 (0, 3) = 0 ∧
      (∀ e ∈ [((1 : Int), (-5 : Int)), (2, -5), (3, -4), (4, -3), (5, -2), (5, -1)], 1 ≤ cornerCount 5 2 e) ∧
      cornerCount 5 2 (1, 5) = 0 ∧ cornerCount 5 2 (-1, -5) = 0 := by
  decide

/-- The walk's start, an inner step and its end, for the recurrence. -/
theorem witness_CircleSmallRadii_walk :
    ((0, (5 : Int)) :: midpointSteps 5)[0]? = some (0, 5) ∧ ((0, (5 : Int)) :: midpointSteps 5)[2]? = some (2, 5) ∧
      0 ≤ decisionAt 5 (2, 5) ∧ ¬ 0 ≤ decisionAt 5 (0, 5) ∧ ((0, (5 : Int)) :: midpointSteps 5)[4]? = some (4, 3) := by
  decide

theorem witness_CircleSmallRadii :
    sound.faulted = false ∧ sound.params.Legal ∧ sound.params.safeMode = true ∧
      unsafeBlock.faulted = false ∧ unsafeBlock.params.Legal ∧
      inRange unsafeBlock.params ((127 : Word).toInt, (63 : Word).toInt) = true := by
  decide

theorem witness_CirchMaskSelectsQuadrants :
    (8, 9) ∈ cornerPoints 10 10 2 1 ∧ (12, 9) ∈ cornerPoints 10 10 2 2 ∧ (12, 11) ∈ cornerPoints 10 10 2 4 ∧
      (8, 11) ∈ cornerPoints 10 10 2 8 := by
  decide

theorem witness_FilledCirclesDrawSpans : sound.faulted = false ∧ sound.params.Legal ∧
    unsafeBlock.faulted = false ∧ unsafeBlock.params.Legal := by
  decide

theorem witness_FcircIsVlineThenFcirch :
    -32768 ≤ (0x8000 : Word).toInt - ((0 : Byte).toNat : Int) ∧ -32768 ≤ (0x80FF : Word).toInt - ((255 : Byte).toNat : Int) ∧
      sound.faulted = false := by
  decide

theorem witness_BlitDrawsSourceBits :
    sound.faulted = false ∧ sound.params.Legal ∧
      extentInside sound (address 0 0) ((2 : Word).toNat * (((16 : Word).toNat + 7) / 8)) ∧
      extentInside sound (address 0xFFFF 0xFFFF) ((0 : Word).toNat * (((16 : Word).toNat + 7) / 8)) := by
  unfold extentInside
  decide

theorem witness_SlowblitDrawsSourceBits :
    sound.faulted = false ∧ sound.params.Legal ∧ sound.params.safeMode = true ∧
      extentInside sound (address 0 0) (((8 : Word).toNat + 7) / 8 * (4 : Word).toNat) ∧
      unsafeBlock.faulted = false ∧ unsafeBlock.params.Legal ∧
      extentInside unsafeBlock (address 0 0) (((8 : Word).toNat + 7) / 8 * (2 : Word).toNat) ∧
      ∀ i < (8 : Word).toNat, ∀ j < (2 : Word).toNat, rowBit unsafeBlock (address 0 0) 8 i j = true →
        inRange unsafeBlock.params ((120 : Word).toInt + (i : Int), (62 : Word).toInt + (j : Int)) = true := by
  unfold extentInside
  decide

theorem witness_BlitsFault :
    sound.faulted = false ∧
      ¬ extentInside sound (address 1 0) ((2 : Word).toNat * (((16 : Word).toNat + 7) / 8)) ∧
      ¬ extentInside sound (address 1 0) (((8 : Word).toNat + 7) / 8 * (4 : Word).toNat) ∧
      unsafeBlock.faulted = false ∧ unsafeBlock.params.safeMode = false ∧
      extentInside unsafeBlock (address 0 0) (((8 : Word).toNat + 7) / 8 * (2 : Word).toNat) ∧
      ∃ i < (8 : Word).toNat, ∃ j < (2 : Word).toNat, rowBit unsafeBlock (address 0 0) 8 i j = true ∧
        inRange unsafeBlock.params ((0xFFFF : Word).toInt + (i : Int), (0 : Word).toInt + (j : Int)) = false := by
  unfold extentInside
  decide

theorem witness_BlitByteFormAgrees : sound.params.Legal := sound_legal

/-- One image in both formats: its column 0 is packed byte 0x81, so its eight rows are the row-major bytes below. -/
def twoFormats : State :=
  { sound with
    params := ⟨128, 64, true, 1, 16⟩
    src := [(0, 0x81), (8, 0x80), (9, 0), (10, 0), (11, 0), (12, 0), (13, 0), (14, 0), (15, 0x80)] }

theorem witness_BlitEqualsSlowblit :
    twoFormats.faulted = false ∧ twoFormats.params.Legal ∧ (8 : Word).toNat % 8 = 0 ∧
      extentInside twoFormats (address 0 0) ((1 : Word).toNat * (((8 : Word).toNat + 7) / 8)) ∧
      extentInside twoFormats (address 8 0) (((1 : Word).toNat + 7) / 8 * (8 : Word).toNat) ∧
      (∀ i < (1 : Word).toNat, ∀ j < (8 : Word).toNat,
        packedBit twoFormats (address 0 0) 1 i j = rowBit twoFormats (address 8 0) 1 i j) ∧
      twoFormats.params.safeMode = true := by
  unfold extentInside
  decide

theorem witness_SetfpsSetsRate : sound.faulted = false ∧ (1 : Byte) ≠ 0 ∧ (255 : Byte) ≠ 0 := by decide

theorem witness_NextframeWaits :
    let s := inWindow 0 16 15
    s.faulted = false ∧ s.clockLast.toNat ≤ s.clock.toNat ∧ s.clock.toNat < s.nextFrameStart.toNat := by
  decide

theorem witness_NextframeOpens :
    let s := inWindow 0 16 16
    s.faulted = false ∧ s.clockLast.toNat ≤ s.clock.toNat ∧ s.nextFrameStart.toNat ≤ s.clock.toNat ∧
      nextOf s ≤ 2 ^ 32 - 1 := by
  decide

/-- B5.10's state: the last second before the clock wraps. -/
def lastSecond : State := { sound with clock := 0xFFFFFFF0 }

/-- B5.9 and B5.10. -/
theorem witness_NextframeFaults :
    (inWindow 10 16 9).faulted = false ∧ (inWindow 10 16 9).clock.toNat < (inWindow 10 16 9).clockLast.toNat ∧
      lastSecond.faulted = false ∧ lastSecond.clockLast.toNat ≤ lastSecond.clock.toNat ∧
      lastSecond.nextFrameStart.toNat ≤ lastSecond.clock.toNat ∧ 2 ^ 32 - 1 < nextOf lastSecond := by
  decide

theorem witness_NextframeFaults_inv : lastSecond.Inv := by
  constructor <;> first | decide | exact trivial

theorem witness_FirstNextframeOpens :
    (15 : DWord).toNat + 16 ≤ 2 ^ 32 - 1 ∧ (16 : DWord).toNat + 16 ≤ 2 ^ 32 - 1 ∧ (0xFFFFFFEF : DWord).toNat + 16 ≤ 2 ^ 32 - 1 := by
  decide

/-- B5.5: an opening at 116, and a query one millisecond before the next one. -/
theorem witness_NoCatchUp :
    (inWindow 0 16 20).Inv ∧
      ∃ t, exec .nextframe (inWindow 0 16 20) = .next t ∧ t.respStatus = 0x00 ∧ t.respResult = 1 ∧
        t.nextFrameStart = 32 ∧ (inWindow 0 16 20).clock.toNat ≤ (31 : DWord).toNat ∧ (31 : DWord).toNat < t.nextFrameStart.toNat :=
  ⟨inWindow_inv, _, rfl, rfl, rfl, rfl, by decide, by decide⟩

/-- B5.6: openings at 16, 41 and 48. -/
theorem witness_WindowsKeepTheirDistance :
    (inWindow 0 16 0).Inv ∧ openings [16, 41, 42, 48] (inWindow 0 16 0) = [16, 41, 48] :=
  ⟨by constructor <;> first | decide | exact trivial, by decide⟩

theorem witness_CpuloadReportsBudget : sound.faulted = false ∧ sound.Inv := ⟨rfl, sound_inv⟩

theorem witness_EveryxTestsCount : sound.faulted = false ∧ (255 : Byte) ≠ 0 := by decide

theorem witness_PresentStartsTransfer : sound.faulted = false ∧ 1023 < sound.params.fbBytes := by decide

theorem witness_PresentCompletes : sound.Inv ∧ sound.faulted = false ∧ sound.busy = false := ⟨sound_inv, rfl, rfl⟩

theorem witness_BusyPortTakesNoWord : presenting.busy = true ∧ ∃ t, step presenting = .next t := ⟨rfl, _, rfl⟩

/-- Nothing to come, and nothing but what a BUSY block holds back. -/
theorem witness_EveryStepGoesOn :
    nextInput sound.busy sound.inputs = none ∧
      nextInput { presenting with inputs := [.word 0x0003, .asset 0 0] }.busy [.word 0x0003, .asset 0 0] = none := by
  decide

theorem witness_StuckSinkLeavesBusy :
    presenting.busy = true ∧ Input.reset ∉ presenting.inputs ∧
      presenting.inputs.count .sinkTake < presenting.sinkLeft.length := by
  decide

theorem witness_ClockAndAssetActs :
    ({ sound with inputs := [.clock 5] }.inputs = [] ++ Input.clock 5 :: [] ∧ sound.busy = false) ∧
      (presenting.inputs = [.word 0x0003, .asset 0 0] ++ Input.clock 9 :: [] ∧ presenting.busy = true ∧
        ∀ i ∈ [Input.word 0x0003, .asset 0 0], i.heldBack = true) ∧
      { sound with inputs := [.asset 3 0xAA] }.inputs = Input.asset 3 0xAA :: [] ∧
      (3 : DWord).toNat < sound.params.srcSize ∧ ¬ (4 : DWord).toNat < sound.params.srcSize := by
  decide

end Sys2Proof.Tests
end

/-! PROOFS. R2: what the renderer and the scheduler share, and what they leave of each other. -/

namespace Sys2Proof.Machine

open Sys2Proof.Statements

/-- What a command does when FAULTED = 0: the body its meaning hands to `State.command`. -/
def execBody : Instr → State → State
  | .setpx op x y, s => s.runPlots op [(s16 x, s16 y)]
  | .getpx x y, s =>
    if inRange s.params (s16 x, s16 y) then s.respond (if s.pixel (s16 x, s16 y) then 1 else 0) else s.respondDraw
  | .fill op, s => (s.fillAll op).respond 0
  | .line op x0 y0 x1 y1, s => s.runPlots op (linePoints (s16 x0) (s16 y0) (s16 x1) (s16 y1))
  | .hline op x y w, s => (s.plotAll op (hspanPoints s.params (s16 x) (s16 y) (u16 w))).respond 0
  | .vline op x y ht, s => (s.plotAll op (spanPoints s.params (s16 x) (s16 y) (u16 ht))).respond 0
  | .circle op x0 y0 r, s => s.runPlots op (circlePoints (s16 x0) (s16 y0) (u8 r))
  | .circh op msk x0 y0 r, s => s.runPlots op (cornerPoints (s16 x0) (s16 y0) (u8 r) msk)
  | .fcirc op x0 y0 r, s => (s.plotAll op (discPoints s.params (s16 x0) (s16 y0) (u8 r))).respond 0
  | .fcirch op msk x0 y0 r delta, s =>
    (s.plotAll op (halfSpans s.params (s16 x0) (s16 y0) (u8 r) msk (s16 delta))).respond 0
  | .blit op x y alo ahi w ht, s =>
    if srcOutside s.params (srcAddr alo ahi) (u16 w * packedRows (u16 ht)) then s.raiseFault .srcRange
    else (s.plotAll op (blitPoints s (s16 x) (s16 y) (srcAddr alo ahi) (u16 w) (u16 ht))).respond 0
  | .slowblit op x y alo ahi w ht, s =>
    if srcOutside s.params (srcAddr alo ahi) (rowBytes (u16 w) * u16 ht) then s.raiseFault .srcRange
    else s.runPlots op (slowblitPoints s (s16 x) (s16 y) (srcAddr alo ahi) (u16 w) (u16 ht))
  | .setfps rate, s => if rate = 0 then s.raiseError .operandRange else (s.withRate rate).respond 0
  | .nextframe, s => s.nextframe
  | .cpuload, s => s.respond (BitVec.ofNat 32 (s.lastFrameDuration.toNat * 100 / s.eachFrameMs.toNat))
  | .everyx n, s =>
    if n = 0 then s.raiseError .operandRange else s.respond (if s.frameCount.toNat % n.toNat = 0 then 1 else 0)
  | .present, s => (s.startTransfer s.presentBytes).emit (.present s.presentBytes)

/-- R230: every command runs its body behind the one check of FAULTED. -/
theorem exec_eq_command (i : Instr) (s : State) : exec i s = s.command (execBody i) := by
  cases i <;> rfl

/-- A command carries a change `f` of the state to its end when its body and its answer in the fault state do, and `f`
leaves the fault state alone. -/
theorem exec_commutes {f : State → State} {i : Instr} {s t : State}
    (hfault : (f s).faulted = s.faulted) (hresp : (f s).respondFaulted = f s.respondFaulted)
    (hbody : execBody i (f s) = f (execBody i s)) (h : exec i s = .next t) : exec i (f s) = .next (f t) := by
  cases hs : s.faulted with
  | true =>
    obtain rfl : s.respondFaulted = t := by simpa [exec_faulted i hs] using h
    rw [exec_faulted i (hfault.trans hs), hresp]
  | false =>
    rw [exec_eq_command, command_sound hs] at h
    obtain rfl : execBody i s = t := by simpa using h
    rw [exec_eq_command, command_sound (hfault.trans hs), hbody]

/-! ### The renderer under other scheduler registers -/

section withSched

variable (op : CombineOp) (s : State) (r : Sched)

theorem combineAt_withSched (i : Nat) (m : Byte) :
    (withSched s r).combineAt op i m = withSched (s.combineAt op i m) r := by
  unfold State.combineAt
  rw [apply_ite (withSched · r)]
  rfl

theorem plot_withSched (q : Point) : (withSched s r).plot op q = withSched (s.plot op q) r := by
  unfold State.plot
  rw [apply_ite (withSched · r), ← combineAt_withSched]
  rfl

theorem plotAll_withSched (ps : List Point) : (withSched s r).plotAll op ps = withSched (s.plotAll op ps) r :=
  List.foldl_hom (withSched · r) fun u q => plot_withSched op u r q

theorem fillAll_withSched : (withSched s r).fillAll op = withSched (s.fillAll op) r :=
  List.foldl_hom (withSched · r) fun u i => combineAt_withSched op u r i 0xFF

/-- The end of the commands that plot their points without the check of R102. -/
theorem plotAll_respond_withSched (ps : List Point) :
    ((withSched s r).plotAll op ps).respond 0 = withSched ((s.plotAll op ps).respond 0) r := by
  rw [plotAll_withSched]
  rfl

theorem runPlots_withSched (ps : List Point) : (withSched s r).runPlots op ps = withSched (s.runPlots op ps) r := by
  unfold State.runPlots
  rw [apply_ite (withSched · r), ← plotAll_respond_withSched]
  rfl

end withSched

/-- R2: the body of a drawing command or of PRESENT neither reads nor writes a scheduler register. -/
theorem execBody_withSched {i : Instr} (hi : isScheduler i = false) (s : State) (r : Sched) :
    execBody i (withSched s r) = withSched (execBody i s) r := by
  cases i with
  | setpx | line | circle | circh => exact runPlots_withSched ..
  | hline | vline | fcirc | fcirch => exact plotAll_respond_withSched ..
  | fill op =>
    simp only [execBody, fillAll_withSched]
    rfl
  | getpx x y =>
    simp only [execBody, apply_ite (withSched · r)]
    rfl
  | blit op x y alo ahi w ht =>
    simp only [execBody, apply_ite (withSched · r), ← plotAll_respond_withSched]
    rfl
  | slowblit op x y alo ahi w ht =>
    simp only [execBody, apply_ite (withSched · r), ← runPlots_withSched]
    rfl
  | present => rfl
  | setfps | nextframe | cpuload | everyx => cases hi

/-! ### The scheduler under another framebuffer and asset memory -/

/-- A state with another framebuffer, free draws included, and another asset memory. -/
def State.withMemories (s : State) (fb src : Memory) (e : Nat) : State := { s with fb := fb, src := src, fbEpoch := e }

section withMemories

variable (s : State) (fb src : Memory) (e : Nat)

theorem finalizePending_withMemories (now : Nat) :
    (s.withMemories fb src e).finalizePending now = (s.finalizePending now).withMemories fb src e := by
  unfold State.finalizePending
  rw [apply_ite (State.withMemories · fb src e)]
  rfl

theorem requestIdle_withMemories (now : Nat) :
    (s.withMemories fb src e).requestIdle now = (s.requestIdle now).withMemories fb src e := by
  unfold State.requestIdle
  rw [apply_ite (State.withMemories · fb src e)]
  rfl

/-- The state of NEXTFRAME after its sample and the accounting of the frame before (R181, R183). -/
theorem finalized_withMemories (t : DWord) (now : Nat) :
    ((s.withMemories fb src e).withClockLast t).finalizePending now =
      ((s.withClockLast t).finalizePending now).withMemories fb src e :=
  finalizePending_withMemories (s.withClockLast t) fb src e now

theorem nextframe_withMemories : (s.withMemories fb src e).nextframe = s.nextframe.withMemories fb src e := by
  simp only [State.nextframe, finalized_withMemories, requestIdle_withMemories,
    apply_ite (State.withMemories · fb src e)]
  rfl

end withMemories

/-- R2: the body of a scheduler command neither reads nor writes the framebuffer and the asset memory. -/
theorem execBody_withMemories {i : Instr} (hi : isScheduler i = true) (s : State) (fb src : Memory) (e : Nat) :
    execBody i (s.withMemories fb src e) = (execBody i s).withMemories fb src e := by
  cases i with
  | setfps rate =>
    simp only [execBody, apply_ite (State.withMemories · fb src e)]
    rfl
  | nextframe => exact nextframe_withMemories ..
  | cpuload => rfl
  | everyx n =>
    simp only [execBody, apply_ite (State.withMemories · fb src e)]
    rfl
  | setpx | getpx | fill | line | hline | vline | circle | circh | fcirc | fcirch | blit | slowblit | present => cases hi

/-- Settles O22: each command's body commutes with a change of the other side's registers. -/
theorem rendererAndSchedulerIndependent : Obligations.RendererAndSchedulerIndependent := by
  intro i s t h
  exact ⟨fun hi r => exec_commutes (f := (withSched · r)) rfl rfl (execBody_withSched hi s r) h,
    fun hi fb src e =>
      exec_commutes (f := (State.withMemories · fb src e)) rfl rfl (execBody_withMemories hi s fb src e) h⟩

end Sys2Proof.Machine

/-! PROOFS. R13: what a plot list does depends on how often each point occurs, not on the order. -/

namespace Sys2Proof.Machine

/-- R13: one more plot is one plot before the others. -/
theorem overdraw_succ (op : CombineOp) (n : Nat) (b : Bool) :
    overdraw op (n + 1) b = overdraw op n (overdraw op 1 b) := by
  cases op with
  | set => simp [overdraw]
  | clear => simp [overdraw]
  | invert =>
    have hodd : decide ((n + 1) % 2 = 1) = !decide (n % 2 = 1) := by
      rw [← decide_not]
      exact decide_eq_decide.2 (by omega)
    cases b <;> simp [overdraw, hodd]

/-- `pixel_plot`, as one overdraw of the point's own pixel. -/
theorem pixel_plot_overdraw {op : CombineOp} {s : State} (hp : s.params.Legal) {q r : Point}
    (hq : inRange s.params q = true) (hr : inRange s.params r = true) :
    (s.plot op q).pixel r = if r = q then overdraw op 1 (s.pixel r) else s.pixel r := by
  rw [pixel_plot hp hq hr]
  cases op <;> simp [overdraw]

/-- R13: a pixel after a plot list, by the number of times its point occurs. -/
theorem pixel_plotAll {op : CombineOp} {s : State} (hp : s.params.Legal) (ps : List Point) {r : Point}
    (hr : inRange s.params r = true) : (s.plotAll op ps).pixel r = overdraw op (ps.count r) (s.pixel r) := by
  induction ps generalizing s with
  | nil => cases op <;> simp [overdraw]
  | cons q ps ih =>
    rw [plotAll_cons, ih (by rwa [plot_params]) (by rwa [plot_params])]
    by_cases hrq : r = q
    · subst hrq
      rw [pixel_plot_overdraw hp hr hr, if_pos rfl, List.count_cons_self, ← overdraw_succ]
    · rw [List.count_cons_of_ne (Ne.symm hrq)]
      cases hq : inRange s.params q with
      | true => rw [pixel_plot_overdraw hp hq hr, if_neg hrq]
      | false => rw [plot_of_not_inRange hq]

/-- R12: two combinations under one operator can change places. -/
theorem combine_right_comm (op : CombineOp) (b m n : Byte) :
    combine op (combine op b m) n = combine op (combine op b n) m := by
  cases op with
  | set => simp only [combine, BitVec.or_assoc, BitVec.or_comm m]
  | clear => simp only [combine, BitVec.and_assoc, BitVec.and_comm (~~~ m)]
  | invert => simp only [combine, BitVec.xor_assoc, BitVec.xor_comm m]

/-- R100: byte `i` of the framebuffer after a plot of `q`, from its value `b` before. -/
def plotByte (p : Params) (op : CombineOp) (i : Nat) (b : Byte) (q : Point) : Byte :=
  if inRange p q = true ∧ i = byteIndex p q ∧ i < p.fbBytes then combine op b (bitMask q) else b

theorem fbByte_plot (op : CombineOp) (s : State) (q : Point) (i : Nat) :
    (s.plot op q).fbByte i = plotByte s.params op i (s.fbByte i) q := by
  unfold plotByte
  cases hq : inRange s.params q with
  | false => simp [plot_of_not_inRange hq]
  | true =>
    simp only [State.plot, hq, if_true, fbByte_combineAt, true_and]
    by_cases hi : i = byteIndex s.params q
    · subst hi
      simp
    · simp [hi]

theorem fbByte_plotAll (op : CombineOp) (s : State) (ps : List Point) (i : Nat) :
    (s.plotAll op ps).fbByte i = ps.foldl (plotByte s.params op i) (s.fbByte i) := by
  induction ps generalizing s with
  | nil => rfl
  | cons q ps ih => rw [plotAll_cons, ih, fbByte_plot, plot_params, List.foldl_cons]

theorem plotByte_right_comm (p : Params) (op : CombineOp) (i : Nat) (b : Byte) (q r : Point) :
    plotByte p op i (plotByte p op i b q) r = plotByte p op i (plotByte p op i b r) q := by
  unfold plotByte
  split_ifs
  · exact combine_right_comm ..
  · rfl
  · rfl
  · rfl

/-- R13: the framebuffer after a plot list does not depend on the list's order. -/
theorem fbByte_plotAll_perm {ps qs : List Point} (h : ps.Perm qs) (op : CombineOp) (s : State) (i : Nat) :
    (s.plotAll op ps).fbByte i = (s.plotAll op qs).fbByte i := by
  have : RightCommutative (plotByte s.params op i) := ⟨plotByte_right_comm s.params op i⟩
  rw [fbByte_plotAll, fbByte_plotAll, h.foldl_eq]

/-- R13, R102: nor does the end state of the list as a command, its fault included. -/
theorem runPlots_perm {ps qs : List Point} (h : ps.Perm qs) (op : CombineOp) (s : State) :
    (∀ i, (s.runPlots op ps).fbByte i = (s.runPlots op qs).fbByte i) ∧
      s.runPlots op ps = { s.runPlots op qs with fb := (s.runPlots op ps).fb } := by
  by_cases hok : s.params.safeMode = true ∨ ∀ q ∈ ps, inRange s.params q = true
  · have hok' : s.params.safeMode = true ∨ ∀ q ∈ qs, inRange s.params q = true :=
      hok.imp_right fun ha q hq => ha q (h.mem_iff.2 hq)
    rw [runPlots_ok hok, runPlots_ok hok']
    refine ⟨fbByte_plotAll_perm h op s, ?_⟩
    rw [plotAll_frame op s ps, plotAll_frame op s qs]
    rfl
  · simp only [not_or, not_forall, Bool.not_eq_true] at hok
    obtain ⟨hs, q, hq, ho⟩ := hok
    rw [runPlots_fault hs hq ho, runPlots_fault hs (h.mem_iff.1 hq) ho]
    exact ⟨fun _ => rfl, rfl⟩

/-- Settles O23: the pixels by induction on the list, the order by the commuting plots of each byte. -/
theorem plotListPixels : Obligations.PlotListPixels :=
  fun op s ps hp => ⟨fun _ hq => pixel_plotAll hp ps hq, fun _ h => runPlots_perm h op s⟩

end Sys2Proof.Machine

/-! PROOFS. What a command can do to the state: each end of a command, and what each end leaves alone. -/

namespace Sys2Proof.Machine

open Sys2Proof.Statements

/-! ### The framebuffer a drawing command leaves -/

/-- R59: what every drawing command keeps when it makes `m` the framebuffer's listing. -/
structure State.Redraws (s : State) (m : Memory) : Prop where
  wf : s.fb.wf → m.wf
  below : s.fb.below s.params.fbBytes → m.below s.params.fbBytes
  outside : ∀ k, s.params.fbBytes ≤ k → (s.withFb m).fbByte k = s.fbByte k

theorem fbByte_plotAll_outside (op : CombineOp) {s : State} {k : Nat} (hk : s.params.fbBytes ≤ k) (ps : List Point) :
    (s.plotAll op ps).fbByte k = s.fbByte k := by
  rw [fbByte_plotAll]
  induction ps with
  | nil => rfl
  | cons q ps ih =>
    have hq : plotByte s.params op k (s.fbByte k) q = s.fbByte k := if_neg fun h => by omega
    rw [List.foldl_cons, hq, ih]

theorem redraws_plotAll (op : CombineOp) (s : State) (ps : List Point) : s.Redraws (s.plotAll op ps).fb where
  wf := plotAll_wf ps
  below := plotAll_below ps
  outside k hk := by rw [← plotAll_frame, fbByte_plotAll_outside op hk]

theorem redraws_fillAll (op : CombineOp) (s : State) : s.Redraws (s.fillAll op).fb where
  wf := fillAll_wf
  below := fillAll_below
  outside k hk := by rw [← fillAll_frame, fbByte_fillAll, if_neg (Nat.not_lt.2 hk)]

/-! ### The frame accounting of NEXTFRAME -/

/-- The state of NEXTFRAME after its sample (R181) and the accounting of the frame before (R183), with whatever duration and
count that gave: no completion is owed any more. -/
def State.closeFrame (s : State) (d : BitVec 16) (n : BitVec Config.frameCountW) : State :=
  { s with clockLast := s.clock, lastFrameDuration := d, frameCount := n, postRenderPending := false }

theorem finalizePending_withClockLast (s : State) (now : Nat) :
    ∃ d n, (s.withClockLast s.clock).finalizePending now = s.closeFrame d n := by
  cases hp : s.postRenderPending with
  | true => exact ⟨_, _, if_pos hp⟩
  | false =>
    refine ⟨s.lastFrameDuration, s.frameCount, ?_⟩
    simp [State.finalizePending, State.closeFrame, State.withClockLast, hp]

/-! ### The ends of a command -/

/-- What command `i` can make of the state `s` (R220): the inversion of `exec`. -/
inductive CommandEnd (i : Instr) (s : State) : State → Prop
  /-- A response and nothing else: a result, an error, or the answer of a block in the fault state. -/
  | responds (st : Status) (v : DWord) : CommandEnd i s (s.withResp st v)
  /-- Entry into the fault state (R226). -/
  | faults (c : FaultCause) : CommandEnd i s (s.raiseFault c)
  /-- The framebuffer drawn on (R23). -/
  | draws {m : Memory} (hi : writesFb i = true) (hm : s.Redraws m) : CommandEnd i s ((s.withFb m).respond 0)
  /-- GETPX out of range (R103). -/
  | drawsFreeValue {x y : Word} (hi : i = .getpx x y) : CommandEnd i s s.respondDraw
  /-- SETFPS with a rate (R182). -/
  | setsRate {r : Byte} (hi : i = .setfps r) (hr : r ≠ 0) : CommandEnd i s ((s.withRate r).respond 0)
  /-- NEXTFRAME before the next window, without an idle request (R186). -/
  | waits {d : BitVec 16} {n : BitVec Config.frameCountW} (hi : i = .nextframe)
      (hclock : s.clockLast.toNat ≤ s.clock.toNat) (hearly : s.clock.toNat < s.nextFrameStart.toNat) :
      CommandEnd i s ((s.closeFrame d n).respond 0)
  /-- The same with the idle request (R184). -/
  | idles {d : BitVec 16} {n : BitVec Config.frameCountW} (hi : i = .nextframe)
      (hclock : s.clockLast.toNat ≤ s.clock.toNat) (hearly : s.clock.toNat < s.nextFrameStart.toNat) :
      CommandEnd i s (((s.closeFrame d n).emit .idleReq).respond 0)
  /-- NEXTFRAME that opens a window (R186). -/
  | opens {d : BitVec 16} {n : BitVec Config.frameCountW} (hi : i = .nextframe)
      (hclock : s.clockLast.toNat ≤ s.clock.toNat) (hdue : s.nextFrameStart.toNat ≤ s.clock.toNat)
      (hnext : s.nextStart s.clock.toNat < 2 ^ 32) :
      CommandEnd i s (((s.closeFrame d n).openWindow s.clock (s.nextStart s.clock.toNat)).respond 1)
  /-- PRESENT up to its wait (R201), of a block that is not faulted. -/
  | presents (hi : i = .present) (hf : s.faulted = false) :
      CommandEnd i s ((s.startTransfer s.presentBytes).emit (.present s.presentBytes))

theorem commandEnd_plotAll {i : Instr} (hi : writesFb i = true) (op : CombineOp) (s : State) (ps : List Point) :
    CommandEnd i s ((s.plotAll op ps).respond 0) := by
  rw [plotAll_frame]
  exact .draws hi (redraws_plotAll op s ps)

theorem commandEnd_runPlots {i : Instr} (hi : writesFb i = true) (op : CombineOp) (s : State) (ps : List Point) :
    CommandEnd i s (s.runPlots op ps) := by
  unfold State.runPlots
  split
  · exact .faults _
  · exact commandEnd_plotAll hi op s ps

theorem commandEnd_nextframe (s : State) : CommandEnd .nextframe s s.nextframe := by
  obtain ⟨d, n, hclose⟩ := finalizePending_withClockLast s s.clock.toNat
  simp only [State.nextframe, hclose]
  split
  · exact .faults _
  · rename_i hclock
    split
    · rename_i hearly
      unfold State.requestIdle
      split
      · exact .idles rfl (Nat.not_lt.1 hclock) hearly
      · exact .waits rfl (Nat.not_lt.1 hclock) hearly
    · rename_i hdue
      split
      · exact .faults _
      · exact .opens rfl (Nat.not_lt.1 hclock) (Nat.not_lt.1 hdue) (by omega)

theorem commandEnd_execBody (i : Instr) {s : State} (hf : s.faulted = false) : CommandEnd i s (execBody i s) := by
  cases i with
  | setpx | line | circle | circh => exact commandEnd_runPlots rfl ..
  | hline | vline | fcirc | fcirch => exact commandEnd_plotAll rfl ..
  | fill op =>
    simp only [execBody]
    rw [fillAll_frame]
    exact .draws rfl (redraws_fillAll op s)
  | blit =>
    simp only [execBody]
    split
    · exact .faults _
    · exact commandEnd_plotAll rfl ..
  | slowblit =>
    simp only [execBody]
    split
    · exact .faults _
    · exact commandEnd_runPlots rfl ..
  | getpx =>
    simp only [execBody]
    split
    · exact .responds _ _
    · exact .drawsFreeValue rfl
  | setfps rate =>
    simp only [execBody]
    split
    · exact .responds _ _
    · exact .setsRate rfl ‹_›
  | nextframe => exact commandEnd_nextframe s
  | cpuload => exact .responds _ _
  | everyx =>
    simp only [execBody]
    split
    · exact .responds _ _
    · exact .responds _ _
  | present => exact .presents rfl hf

/-- R220: every command ends in one of these ways, the block in the fault state included. -/
theorem commandEnd_of_exec {i : Instr} {s t : State} (h : exec i s = .next t) : CommandEnd i s t := by
  cases hf : s.faulted with
  | true =>
    obtain rfl : s.respondFaulted = t := by simpa [exec_faulted i hf] using h
    exact .responds _ _
  | false =>
    obtain rfl : execBody i s = t := by simpa [exec_eq_command, command_sound hf] using h
    exact commandEnd_execBody i hf

/-! ### What the ends leave alone -/

namespace CommandEnd

variable {i : Instr} {s t : State}

/-- No end writes the parameters, what stands at the block's inputs, CMD_BUF or the number of the reset. -/
theorem inputs_unchanged (h : CommandEnd i s t) :
    t.params = s.params ∧ t.src = s.src ∧ t.clock = s.clock ∧ t.inputs = s.inputs ∧ t.cmdBuf = s.cmdBuf ∧
      t.fbEpoch = s.fbEpoch := by
  cases h <;> exact ⟨rfl, rfl, rfl, rfl, rfl, rfl⟩

/-- R23. -/
theorem fb_unchanged (h : CommandEnd i s t) (hi : writesFb i = false) : t.fb = s.fb := by
  cases h with
  | draws hw => simp [hi] at hw
  | _ => rfl

/-- R59. -/
theorem fbByte_outside (h : CommandEnd i s t) (k : Nat) (hk : s.params.fbBytes ≤ k) : t.fbByte k = s.fbByte k := by
  cases h with
  | draws _ hm => exact hm.outside k hk
  | _ => rfl

/-- R25, R26, R27. -/
theorem rate_unchanged (h : CommandEnd i s t) (hi : ∀ r, i ≠ .setfps r) :
    t.frameRate = s.frameRate ∧ t.eachFrameMs = s.eachFrameMs := by
  cases h with
  | setsRate hr => exact absurd hr (hi _)
  | _ => exact ⟨rfl, rfl⟩

/-- R25, R33. -/
theorem frameTiming_unchanged (h : CommandEnd i s t) (hi : i ≠ .nextframe) :
    t.frameCount = s.frameCount ∧ t.lastFrameStart = s.lastFrameStart ∧ t.nextFrameStart = s.nextFrameStart ∧
      t.lastFrameDuration = s.lastFrameDuration ∧ t.postRenderPending = s.postRenderPending ∧
      t.clockLast = s.clockLast := by
  cases h with
  | waits hn | idles hn | opens hn => exact absurd hn hi
  | _ => exact ⟨rfl, rfl, rfl, rfl, rfl, rfl⟩

/-- R36. -/
theorem transfer_unchanged (h : CommandEnd i s t) (hi : i ≠ .present) : t.busy = s.busy ∧ t.sinkLeft = s.sinkLeft := by
  cases h with
  | presents hp => exact absurd hp hi
  | _ => exact ⟨rfl, rfl⟩

/-- R229. -/
theorem out_cases (h : CommandEnd i s t) :
    t.out = s.out ∨ (i = .nextframe ∧ t.out = s.out ++ [.idleReq]) ∨
      (i = .present ∧ t.out = s.out ++ [.present s.presentBytes]) := by
  cases h with
  | idles hi => exact .inr (.inl ⟨hi, rfl⟩)
  | presents hi => exact .inr (.inr ⟨hi, rfl⟩)
  | _ => exact .inl rfl

/-- R103: only GETPX takes a free value. -/
theorem draws_unchanged (h : CommandEnd i s t) (hi : ∀ x y, i ≠ .getpx x y) : t.draws = s.draws := by
  cases h with
  | drawsFreeValue hg => exact absurd hg (hi _ _)
  | _ => rfl

end CommandEnd

/-- Settles O20: each register by the ends of a command that write it. -/
theorem commandsTouchOnlyTheirState : Obligations.CommandsTouchOnlyTheirState := by
  intro i s t h
  have e : CommandEnd i s t := commandEnd_of_exec h
  obtain ⟨hparams, hsrc, hclock, hinputs, hcmdBuf, hepoch⟩ := e.inputs_unchanged
  exact ⟨hparams, hsrc, hclock, hinputs, hcmdBuf, hepoch, e.fb_unchanged, e.fbByte_outside, e.rate_unchanged,
    e.frameTiming_unchanged, e.transfer_unchanged, e.out_cases, e.draws_unchanged⟩

end Sys2Proof.Machine

/-! PROOFS. The invariant: kept by each command's end, by each act of an outside agent, and so by every step. -/

namespace Sys2Proof.Machine

/-! ### The registers of the scheduler -/

/-- R26, R27: a legal rate and its period. -/
theorem Inv_withRate {s : State} (h : s.Inv) {r : Byte} (hr : r ≠ 0) : (s.withRate r).Inv :=
  { h with
    rate_pos := Nat.pos_of_ne_zero fun h0 => hr (BitVec.eq_of_toNat_eq h0)
    each_eq := by
      have : 1000 / r.toNat ≤ 1000 := Nat.div_le_self ..
      rw [withRate_eachFrameMs, withRate_frameRate, BitVec.toNat_ofNat, Nat.mod_eq_of_lt (by omega)] }

theorem eachFrameMs_pos {s : State} (h : s.Inv) : 0 < s.eachFrameMs.toNat := by
  rw [h.each_eq]
  exact Nat.div_pos (by have := s.frameRate.isLt; omega) h.rate_pos

/-- R188: the window that opens at `now` is followed by a later one. -/
theorem lt_nextStart {s : State} (h : s.Inv) (now : Nat) : now < s.nextStart now := by
  have := eachFrameMs_pos h
  unfold State.nextStart
  split <;> omega

/-- R181, R183: a sample that does not regress, with the frame before closed. -/
theorem Inv_closeFrame {s : State} (h : s.Inv) (hclock : s.clockLast.toNat ≤ s.clock.toNat) (d : BitVec 16)
    (n : BitVec Config.frameCountW) : (s.closeFrame d n).Inv :=
  { h with
    start_le_clock := h.start_le_clock.trans hclock
    pending_start := fun hp => Bool.noConfusion hp
    next_after_start := h.next_after_start.imp_right fun ⟨hstart, hnext, _⟩ => ⟨hstart, hnext, rfl⟩ }

/-- R186: a window that opens at the last sample, with a later one after it. -/
theorem Inv_openWindow {s : State} (h : s.Inv) {now : DWord} {next : Nat} (hnow : now = s.clockLast)
    (hlt : now.toNat < next) (hnext : next < 2 ^ 32) : (s.openWindow now next).Inv :=
  { h with
    start_le_clock := by simp [hnow]
    pending_start := fun _ => hnow
    next_after_start := .inl (by
      rwa [openWindow_lastFrameStart, openWindow_nextFrameStart, BitVec.toNat_ofNat, Nat.mod_eq_of_lt hnext]) }

theorem Inv_emit {s : State} (h : s.Inv) (e : Event) : (s.emit e).Inv := { h with }

/-! ### PRESENT and the sink -/

/-- R6: a legal framebuffer has a byte. -/
theorem fbBytes_pos {p : Params} (hp : p.Legal) : 0 < p.fbBytes := by
  obtain ⟨hw, -, hh, -⟩ := hp
  exact Nat.div_pos (hh.trans (Nat.le_mul_of_pos_left _ hw)) (by decide)

theorem presentBytes_ne_nil {s : State} (hp : s.params.Legal) : s.presentBytes ≠ [] := by
  simpa [State.presentBytes] using (fbBytes_pos hp).ne'

/-- R201: a transfer of the whole buffer, begun with no command in assembly by a block that is not faulted. -/
theorem Inv_startTransfer {s : State} (h : s.Inv) (hcmd : s.cmdBuf = []) (hf : s.faulted = false) :
    (s.startTransfer s.presentBytes).Inv :=
  { h with
    busy_iff_left := ⟨fun _ => presentBytes_ne_nil h.params_legal, fun _ => rfl⟩
    busy_alone := fun _ => ⟨hcmd, hf⟩
    left_suffix := List.suffix_refl _ }

theorem Inv_endTransfer {s : State} (h : s.Inv) : s.endTransfer.Inv :=
  { h with
    busy_iff_left := by simp
    busy_alone := fun hb => Bool.noConfusion hb
    left_suffix := List.nil_suffix }

/-- R200, R201: the sink takes a byte, the last one included. -/
theorem Inv_sinkTake {s : State} (h : s.Inv) : s.sinkTake.Inv := by
  unfold State.sinkTake
  split
  · split
    · exact Inv_withResp (Inv_endTransfer h) _ _
    · exact Inv_withResp (Inv_endTransfer h) _ _
    · rename_i hb _ a b rest hl
      exact { h with
        busy_iff_left := by simpa using hb
        left_suffix := (List.suffix_cons a (b :: rest)).trans (hl ▸ h.left_suffix) }
  · exact h

/-! ### Commands -/

/-- GETPX's free value is a new one. -/
theorem Inv_respondDraw {s : State} (h : s.Inv) : s.respondDraw.Inv :=
  Inv_withResp (s := { s with draws := s.draws + 1 }) { h with epoch_lt := Nat.lt_succ_of_lt h.epoch_lt } _ _

/-- R60, R71: a command runs on a block that is not BUSY, with CMD_BUF empty, and each of its ends keeps the invariant. -/
theorem Inv_of_commandEnd {i : Instr} {s t : State} (h : s.Inv) (hb : s.busy = false) (hcmd : s.cmdBuf = [])
    (he : CommandEnd i s t) : t.Inv := by
  cases he with
  | responds st v => exact Inv_withResp h st v
  | faults c => exact Inv_raiseFault h hb c
  | draws _ hm => exact Inv_withResp (Inv_withFb h hb (hm.wf h.fb_wf) (hm.below h.fb_below)) _ _
  | drawsFreeValue => exact Inv_respondDraw h
  | setsRate _ hr => exact Inv_withResp (Inv_withRate h hr) _ _
  | waits _ hclock => exact Inv_withResp (Inv_closeFrame h hclock _ _) _ _
  | idles _ hclock => exact Inv_withResp (Inv_emit (Inv_closeFrame h hclock _ _) _) _ _
  | opens _ hclock _ hnext =>
    exact Inv_withResp (Inv_openWindow (Inv_closeFrame h hclock _ _) rfl (lt_nextStart h _) hnext) _ _
  | presents _ hf => exact Inv_emit (Inv_startTransfer h hcmd hf) _

/-! ### The acts of the outside agents -/

theorem Inv_withInputs {s : State} (h : s.Inv) (is : List Input) : (s.withInputs is).Inv := { h with }

theorem Inv_withClock {s : State} (h : s.Inv) (t : DWord) : (s.withClock t).Inv := { h with }

theorem Inv_assetWrite {s : State} (h : s.Inv) (a : DWord) (b : Byte) : (s.assetWrite a b).Inv := by
  unfold State.assetWrite
  split
  · exact { h with
      src_wf := Memory.wf_write h.src_wf _ _
      src_below := Memory.below_write h.src_below ‹_› _ }
  · exact h

/-- R250: the reset registers, with the parameters and the asset memory as they were. -/
theorem Inv_resetBlock {s : State} (h : s.Inv) : s.resetBlock.Inv where
  params_legal := h.params_legal
  fb_wf := List.Pairwise.nil
  fb_below := fun _ hc => absurd hc List.not_mem_nil
  src_wf := h.src_wf
  src_below := h.src_below
  rate_pos := (by decide : 1 ≤ State.reset.frameRate.toNat)
  each_eq := (by decide : State.reset.eachFrameMs.toNat = 1000 / State.reset.frameRate.toNat)
  start_le_clock := Nat.le_refl _
  pending_start := fun hp => Bool.noConfusion hp
  next_after_start := .inr ⟨rfl, rfl, rfl⟩
  status_code := Nat.zero_le _
  fault_cause := rfl
  cmdBuf_partial := trivial
  busy_iff_left := by simp [State.resetBlock, State.reset]
  busy_alone := fun hb => Bool.noConfusion hb
  left_suffix := List.nil_suffix
  epoch_lt := Nat.lt_succ_self _

/-! ### A word on the port -/

/-- R71: words that the decoder finds too few are a command that still lacks words. -/
theorem partialCommand_of_decode {ws : List Word} (hd : decode ws = .error .incomplete) : partialCommand ws := by
  cases ws with
  | nil => trivial
  | cons h ws =>
    cases ho : opcodeOf (hdrOpc h) with
    | none => simp [decode_illegal ws ho] at hd
    | some o =>
      by_cases hl : ws.length + 1 < o.words
      · exact ⟨o, ho, hl⟩
      · rw [decode_complete ho (Nat.not_lt.1 hl)] at hd
        split at hd
        · exact absurd (decodeOperands_error (Nat.not_lt.1 hl) hd) (by decide)
        · simp at hd

/-- A block that is not BUSY with another partial command in CMD_BUF. -/
theorem Inv_withCmdBuf {s : State} (h : s.Inv) (hb : s.busy = false) {ws : List Word} (hp : partialCommand ws) :
    (s.withCmdBuf ws).Inv :=
  { h with
    cmdBuf_partial := hp
    busy_alone := fun hbusy => absurd (hb.symm.trans hbusy) Bool.false_ne_true }

theorem Inv_refuse {s : State} (h : s.Inv) (st : Status) : (s.refuse st).Inv := by
  unfold State.refuse
  split
  · exact Inv_withResp h _ _
  · exact Inv_withResp h _ _

/-- R202: a word is taken only by a block that is not BUSY, as the first act to come. -/
theorem nextInput_word {busy : Bool} {is rest : List Input} {w : Word}
    (h : nextInput busy is = some (.word w, rest)) : busy = false ∧ is = .word w :: rest := by
  obtain ⟨pre, post, rfl, rfl, hbusy, hidle⟩ := nextInput_some h
  cases busy with
  | true => exact absurd (hbusy rfl).1 (by simp [Input.heldBack])
  | false =>
    obtain rfl : pre = [] := hidle rfl
    exact ⟨rfl, rfl⟩

/-- R71, R83: the word completes nothing, completes a command that is refused, or completes one that runs. -/
theorem Inv_step_word {s t : State} (h : s.Inv) (hb : s.busy = false) {w : Word} {rest : List Input}
    (hi : s.inputs = .word w :: rest) (hs : step s = .next t) : t.Inv := by
  have hr : (s.withInputs rest).Inv := Inv_withInputs h rest
  have hempty : ((s.withInputs rest).withCmdBuf []).Inv := Inv_withCmdBuf hr hb trivial
  rw [step_word hb hi] at hs
  split at hs
  case h_1 => exact Inv_of_commandEnd hempty hb rfl (commandEnd_of_exec hs)
  case h_2 hd =>
    cases hs
    exact Inv_withCmdBuf hr hb (partialCommand_of_decode hd)
  all_goals
    cases hs
    exact Inv_refuse hempty _

/-- Settles O18: a word by what the decoder says of it, a command by its ends, every other act by its own lemma. -/
theorem stepKeepsInv : Obligations.StepKeepsInv := by
  intro s t h hs
  cases hn : nextInput s.busy s.inputs with
  | none =>
    obtain rfl : s = t := by simpa [step, hn] using hs
    exact h
  | some next =>
    obtain ⟨act, rest⟩ := next
    have hr : (s.withInputs rest).Inv := Inv_withInputs h rest
    cases act with
    | word w =>
      obtain ⟨hb, hi⟩ := nextInput_word hn
      exact Inv_step_word h hb hi hs
    | clock c =>
      obtain rfl : (s.withInputs rest).withClock c = t := by simpa [step, hn] using hs
      exact Inv_withClock hr c
    | asset a b =>
      obtain rfl : (s.withInputs rest).assetWrite a b = t := by simpa [step, hn] using hs
      exact Inv_assetWrite hr a b
    | sinkTake =>
      obtain rfl : (s.withInputs rest).sinkTake = t := by simpa [step, hn] using hs
      exact Inv_sinkTake hr
    | reset =>
      obtain rfl : (s.withInputs rest).resetBlock = t := by simpa [step, hn] using hs
      exact Inv_resetBlock hr

end Sys2Proof.Machine

/-! PROOFS. R56, R180: the acts of the clock and of the asset memory. -/

namespace Sys2Proof.Machine

/-- R180: the clock moves past what a BUSY block holds back, and only the clock moves. -/
theorem step_clock {s : State} {c : DWord} {held rest : List Input} (hi : s.inputs = held ++ .clock c :: rest)
    (hheld : if s.busy then ∀ i ∈ held, i.heldBack = true else held = []) :
    step s = .next ((s.withInputs (held ++ rest)).withClock c) := by
  unfold step
  rw [hi, nextInput_append hheld rfl]

/-- R56: a block that is not BUSY lets an asset write through, whatever CMD_BUF holds. -/
theorem step_asset {s : State} {a : DWord} {b : Byte} {rest : List Input} (hb : s.busy = false)
    (hi : s.inputs = .asset a b :: rest) : step s = .next ((s.withInputs rest).assetWrite a b) := by
  unfold step
  rw [hi, nextInput_head (.inl hb)]

/-- An asset write changes SRC alone. -/
theorem assetWrite_frame (s : State) (a : DWord) (b : Byte) :
    s.assetWrite a b = { s with src := (s.assetWrite a b).src } := by
  unfold State.assetWrite
  split <;> rfl

/-- R56: the byte at an address inside SRC_SIZE is the one written; every other byte stays. -/
theorem srcByte_assetWrite (s : State) (a : DWord) (b : Byte) (k : Nat) :
    (s.assetWrite a b).srcByte k = if k = a.toNat ∧ a.toNat < s.params.srcSize then b else s.srcByte k := by
  unfold State.assetWrite
  split
  case isTrue hlt =>
    simp only [State.srcByte, Memory.read_write, hlt, and_true]
    by_cases hk : k = a.toNat <;> simp [hk]
  case isFalse hge => simp [hge]

/-- Settles O60: the clock by its step, an asset write by its step, its frame and its bytes. -/
theorem clockAndAssetActs : Obligations.ClockAndAssetActs :=
  ⟨fun _ _ _ _ hi hheld => step_clock hi hheld,
    fun s a b rest hi hb =>
      ⟨_, step_asset hb hi, assetWrite_frame (s.withInputs rest) a b, srcByte_assetWrite (s.withInputs rest) a b⟩⟩

end Sys2Proof.Machine

/-! PROOFS. R72, R79, R80: the fields of a header word, its match and mask, and the illegal opcodes. -/

namespace Sys2Proof

open Sys2Proof.Statements

/-! ### A header word is its four fields -/

theorem hdrOpc_toNat (h : Word) : (hdrOpc h).toNat = h.toNat % 256 := by
  simp [hdrOpc]

/-- R72: `RSV MSK COL OPC`, from bit 15 down. -/
theorem header_eq_append (h : Word) : h = hdrRsv h ++ hdrMsk h ++ hdrCol h ++ hdrOpc h := by
  unfold hdrRsv hdrMsk hdrCol hdrOpc
  rw [BitVec.extractLsb'_append_extractLsb'_eq_extractLsb' (show 14 = 10 + 4 from rfl),
    BitVec.extractLsb'_append_extractLsb'_eq_extractLsb' (show 10 = 8 + 2 from rfl),
    BitVec.extractLsb'_append_extractLsb'_eq_extractLsb' (show 8 = 0 + 8 from rfl), BitVec.extractLsb'_eq_self]

theorem header_ext_iff {h k : Word} :
    h = k ↔ hdrRsv h = hdrRsv k ∧ hdrMsk h = hdrMsk k ∧ hdrCol h = hdrCol k ∧ hdrOpc h = hdrOpc k := by
  refine ⟨by rintro rfl; exact ⟨rfl, rfl, rfl, rfl⟩, fun ⟨hrsv, hmsk, hcol, hopc⟩ => ?_⟩
  rw [header_eq_append h, hrsv, hmsk, hcol, hopc, ← header_eq_append k]

/-- R84: the row a header word is assigned to, by its low byte. -/
theorem opcodeOf_hdrOpc_of_mod {h : Word} {o : Opcode} (hm : h.toNat % 256 = o.code.toNat) :
    opcodeOf (hdrOpc h) = some o := by
  have hc : hdrOpc h = o.code := BitVec.eq_of_toNat_eq (by rw [hdrOpc_toNat, hm])
  rw [hc, opcodeOf_code]

/-- R75, R76: the header of an allowed command has the fields that its encoding has. -/
theorem eq_encodeHeader {o : Opcode} {h : Word} (ho : opcodeOf (hdrOpc h) = some o) (hrsv : hdrRsv h = 0) :
    h = encodeHeader o (hdrCol h) (hdrMsk h) := by
  rw [header_ext_iff]
  simp [hrsv, code_of_opcodeOf ho]

/-! ### R75 to R77 field by field, and R79's match and mask -/

theorem headerAllowed_iff {o : Opcode} {h : Word} :
    headerAllowed o h = true ↔
      hdrRsv h = 0 ∧ (if o.takesColour then hdrCol h ≠ 3 else hdrCol h = 0) ∧ hdrMsk h &&& ~~~ o.maskBits = 0 := by
  cases hc : o.takesColour <;> simp [headerAllowed, hc, and_assoc]

/-- R79: what a mask covers: the opcode, the reserved bits, a colour field the command does not take, and the mask bits it
may not set. -/
theorem headerPattern_mask (o : Opcode) :
    hdrRsv (headerPattern o).2 = 3 ∧ hdrMsk (headerPattern o).2 = ~~~ o.maskBits ∧
      hdrCol (headerPattern o).2 = (if o.takesColour then 0 else 3) ∧ hdrOpc (headerPattern o).2 = 0xFF := by
  cases o <;> decide

/-- R79: a match is the opcode with every other field 0. -/
theorem headerPattern_match (o : Opcode) :
    hdrRsv (headerPattern o).1 = 0 ∧ hdrMsk (headerPattern o).1 = 0 ∧ hdrCol (headerPattern o).1 = 0 ∧
      hdrOpc (headerPattern o).1 = o.code := by
  cases o <;> decide

theorem masked_header_eq_iff {h m k : Word} :
    h &&& m = k ↔ hdrRsv h &&& hdrRsv m = hdrRsv k ∧ hdrMsk h &&& hdrMsk m = hdrMsk k ∧
      hdrCol h &&& hdrCol m = hdrCol k ∧ hdrOpc h &&& hdrOpc m = hdrOpc k := by
  simp [header_ext_iff, hdrRsv, hdrMsk, hdrCol, hdrOpc, BitVec.extractLsb'_and]

/-- The colour field under R79's mask, "provided `cc != 11`", is the one R75 allows. -/
theorem masked_colour_iff (takes : Bool) (c : BitVec 2) :
    (c &&& (if takes then 0 else 3) = 0 ∧ c ≠ 3) ↔ (if takes then c ≠ 3 else c = 0) := by
  revert takes c
  decide

theorem headerMatches_iff {o : Opcode} {h : Word} (ho : opcodeOf (hdrOpc h) = some o) :
    headerMatches o h ↔ headerAllowed o h = true := by
  obtain ⟨mrsv, mmsk, mcol, mopc⟩ := headerPattern_mask o
  obtain ⟨krsv, kmsk, kcol, kopc⟩ := headerPattern_match o
  have hrsv : hdrRsv h &&& 3 = hdrRsv h := BitVec.and_allOnes
  have hopc : o.code &&& 0xFF = o.code := BitVec.and_allOnes
  rw [headerAllowed_iff, ← masked_colour_iff, headerMatches, masked_header_eq_iff, mrsv, mmsk, mcol, mopc, krsv, kmsk,
    kcol, kopc, code_of_opcodeOf ho, hrsv, hopc]
  show _ ∧ hdrCol h ≠ 3 ↔ _
  tauto

/-! ### R80's list -/

theorem opcodeOf_eq_none_iff (b : BitVec 8) :
    opcodeOf b = none ↔
      b.toNat = 0x00 ∨ (0x04 ≤ b.toNat ∧ b.toNat ≤ 0x0F) ∨ (0x13 ≤ b.toNat ∧ b.toNat ≤ 0x17) ∨
        (0x1C ≤ b.toNat ∧ b.toNat ≤ 0x1F) ∨ (0x22 ≤ b.toNat ∧ b.toNat ≤ 0x2F) ∨
        (0x34 ≤ b.toNat ∧ b.toNat ≤ 0x37) ∨ (0x39 ≤ b.toNat ∧ b.toNat ≤ 0xFF) := by
  have hb := b.isLt
  unfold opcodeOf
  split <;> simp only [reduceCtorEq, true_iff, false_iff, imp_false] at * <;> omega

/-! ### The cases of the decoder -/

/-- R83, R84: what the decoder can answer to a header word and the words after it, with what each answer rests on. -/
inductive DecodeCase (h : Word) (ws : List Word) : Except Reject (Instr × List Word) → Prop
  | unassigned (ho : opcodeOf (hdrOpc h) = none) : DecodeCase h ws (.error .illegalOpcode)
  | wordsMissing {o : Opcode} (ho : opcodeOf (hdrOpc h) = some o) (hl : ws.length + 1 < o.words) :
      DecodeCase h ws (.error .incomplete)
  | headerRefused {o : Opcode} (ho : opcodeOf (hdrOpc h) = some o) (hl : o.words ≤ ws.length + 1)
      (ha : headerAllowed o h = false) : DecodeCase h ws (.error .reservedField)
  | operandsRead {o : Opcode} {r : Except Reject (Instr × List Word)} (ho : opcodeOf (hdrOpc h) = some o)
      (hl : o.words ≤ ws.length + 1) (ha : headerAllowed o h = true) (hr : decodeOperands o h ws = r) : DecodeCase h ws r

theorem decodeCase_of_decode {h : Word} {ws : List Word} {r : Except Reject (Instr × List Word)}
    (hd : decode (h :: ws) = r) : DecodeCase h ws r := by
  subst hd
  cases ho : opcodeOf (hdrOpc h) with
  | none => exact decode_illegal ws ho ▸ .unassigned ho
  | some o =>
    by_cases hl : ws.length + 1 < o.words
    · exact decode_incomplete ho hl ▸ .wordsMissing ho hl
    · have hl := Nat.not_lt.1 hl
      cases ha : headerAllowed o h with
      | true => exact .operandsRead ho hl ha (by simp [decode_complete ho hl, ha])
      | false =>
        have hd : decode (h :: ws) = .error .reservedField := by simp [decode_complete ho hl, ha]
        exact hd ▸ .headerRefused ho hl ha

/-- R80, R83: an unassigned opcode is refused before anything else of the command is read, and nothing else is refused so. -/
theorem decode_eq_illegalOpcode_iff {h : Word} {ws : List Word} :
    decode (h :: ws) = .error .illegalOpcode ↔ opcodeOf (hdrOpc h) = none := by
  refine ⟨fun hd => ?_, decode_illegal ws⟩
  cases decodeCase_of_decode hd with
  | unassigned ho => exact ho
  | operandsRead _ hl _ hr => exact absurd (decodeOperands_error hl hr) (by decide)

/-- R79, R83: a complete command is refused for a reserved field exactly when its header does not match. -/
theorem decode_eq_reservedField_iff {o : Opcode} {h : Word} {ws : List Word} (ho : opcodeOf (hdrOpc h) = some o)
    (hl : o.words ≤ ws.length + 1) : decode (h :: ws) = .error .reservedField ↔ ¬ headerMatches o h := by
  rw [decode_complete ho hl, headerMatches_iff ho]
  split
  case isTrue ha =>
    exact ⟨fun hd => absurd (decodeOperands_error hl hd) (by decide), fun hn => absurd ha hn⟩
  case isFalse ha => simp [ha]

end Sys2Proof

/-! PROOFS. R70 to R74: the decoder and the encoder are inverse to each other. -/

namespace Sys2Proof

/-! ### A command as its row, its header fields and its operand words -/

/-- R78: the row of a command. -/
def Instr.opcode : Instr → Opcode
  | .setpx _ _ _ => .setpx
  | .getpx _ _ => .getpx
  | .fill _ => .fill
  | .line _ _ _ _ _ => .line
  | .hline _ _ _ _ => .hline
  | .vline _ _ _ _ => .vline
  | .circle _ _ _ _ => .circle
  | .circh _ _ _ _ _ => .circh
  | .fcirc _ _ _ _ => .fcirc
  | .fcirch _ _ _ _ _ _ => .fcirch
  | .blit _ _ _ _ _ _ _ => .blit
  | .slowblit _ _ _ _ _ _ _ => .slowblit
  | .setfps _ => .setfps
  | .nextframe => .nextframe
  | .cpuload => .cpuload
  | .everyx _ => .everyx
  | .present => .present

/-- R75: the COL field of a command, 0 where it takes no operator. -/
def Instr.col : Instr → BitVec 2
  | .setpx op _ _ | .fill op | .line op _ _ _ _ | .hline op _ _ _ | .vline op _ _ _ | .circle op _ _ _
  | .circh op _ _ _ _ | .fcirc op _ _ _ | .fcirch op _ _ _ _ _ | .blit op _ _ _ _ _ _
  | .slowblit op _ _ _ _ _ _ => op.col
  | .getpx _ _ | .setfps _ | .nextframe | .cpuload | .everyx _ | .present => 0

/-- R76: the MSK field of a command, 0 where it takes no mask. -/
def Instr.msk : Instr → BitVec 4
  | .circh _ msk _ _ _ => msk
  | .fcirch _ msk _ _ _ _ => msk.setWidth 4
  | .setpx _ _ _ | .getpx _ _ | .fill _ | .line _ _ _ _ _ | .hline _ _ _ _ | .vline _ _ _ _ | .circle _ _ _ _
  | .fcirc _ _ _ _ | .blit _ _ _ _ _ _ _ | .slowblit _ _ _ _ _ _ _ | .setfps _ | .nextframe | .cpuload | .everyx _
  | .present => 0

/-- The words of a command after its header. -/
def Instr.operands (i : Instr) : List Word := (encode i).tail

theorem encode_eq (i : Instr) : encode i = encodeHeader i.opcode i.col i.msk :: i.operands := by
  cases i <;> rfl

/-- R78, column "words". -/
theorem length_operands (i : Instr) : i.operands.length + 1 = i.opcode.words := by
  cases i <;> rfl

/-! ### The operand fields read back -/

theorem col_ne_three (op : CombineOp) : op.col ≠ 3 := by
  cases op <;> decide

theorem col_colourOf {c : BitVec 2} (hc : c ≠ 3) : (colourOf c).col = c := by
  revert c
  decide

/-- R76: FCIRCH's two mask bits in the four-bit field. -/
@[simp] theorem extractLsb'_setWidth_halfMask (m : BitVec 2) : (m.setWidth 4).extractLsb' 0 2 = m := by
  revert m
  decide

/-- CIRCH's mask keeps the whole field. -/
theorem and_fullMask (m : BitVec 4) : m &&& 0b1111#4 = m := BitVec.and_allOnes

/-- FCIRCH's mask keeps the two bits the decoder reads. -/
theorem and_halfMask (m : BitVec 4) : m &&& 0b0011#4 = (m.extractLsb' 0 2).setWidth 4 := by
  revert m
  decide

/-- R76: a mask with no bit set outside the bits a command may set is unchanged by keeping just those. -/
theorem and_maskBits_of_allowed {m n : BitVec 4} (h : m &&& ~~~ n = 0) : m &&& n = m := by
  revert m n
  decide

theorem msk_within_maskBits (i : Instr) : i.msk &&& ~~~ i.opcode.maskBits = 0 := by
  cases i with
  | circh _ msk => exact (by decide : ∀ m : BitVec 4, m &&& ~~~ Opcode.circh.maskBits = 0) msk
  | fcirch _ msk => exact (by decide : ∀ m : BitVec 2, m.setWidth 4 &&& ~~~ Opcode.fcirch.maskBits = 0) msk
  | _ => exact BitVec.zero_and

theorem col_allowed (i : Instr) : if i.opcode.takesColour then i.col ≠ 3 else i.col = 0 := by
  cases i with
  | getpx | setfps | nextframe | cpuload | everyx | present => rfl
  | _ => exact col_ne_three _

/-- R81: an encoded header sets no reserved bit. -/
theorem headerAllowed_encodeHeader (i : Instr) :
    headerAllowed i.opcode (encodeHeader i.opcode i.col i.msk) = true := by
  rw [headerAllowed_iff, hdrRsv_encodeHeader, hdrCol_encodeHeader, hdrMsk_encodeHeader]
  exact ⟨rfl, col_allowed i, msk_within_maskBits i⟩

/-! ### Decode of encode -/

/-- R73, R74: the operand words read back, row by row. -/
theorem decodeOperands_operands (i : Instr) (rest : List Word) :
    decodeOperands i.opcode (encodeHeader i.opcode i.col i.msk) (i.operands ++ rest) = .ok (i, rest) := by
  cases i <;> simp [decodeOperands, Instr.opcode, Instr.col, Instr.msk, Instr.operands, encode]

/-- Settles O15: the encoded header is assigned and allowed, its words are all there, and the operands read back. -/
theorem decodeOfEncode : Obligations.DecodeOfEncode := by
  intro i rest
  have ho : opcodeOf (hdrOpc (encodeHeader i.opcode i.col i.msk)) = some i.opcode := by simp
  have hl : i.opcode.words ≤ (i.operands ++ rest).length + 1 := by
    rw [List.length_append, ← length_operands]
    omega
  rw [encode_eq, List.cons_append, decode_complete ho hl, if_pos (headerAllowed_encodeHeader i),
    decodeOperands_operands]

/-! ### Encode of decode -/

/-- What the operand words of a row decode to: a command of that row, with the header's colour and mask, whose operand
words are those read. -/
theorem of_decodeOperands_ok {o : Opcode} {h : Word} {ws rest : List Word} {i : Instr}
    (hd : decodeOperands o h ws = .ok (i, rest)) :
    i.opcode = o ∧ ws = i.operands ++ rest ∧ i.msk = hdrMsk h &&& o.maskBits ∧
      i.col = if o.takesColour then (colourOf (hdrCol h)).col else 0 := by
  cases o <;> simp only [decodeOperands] at hd
  case fill | nextframe | cpuload | present =>
    cases hd
    exact ⟨rfl, rfl, (BitVec.and_zero ..).symm, rfl⟩
  case setpx | getpx | line | hline | vline | blit | slowblit =>
    split at hd
    · cases hd
      exact ⟨rfl, rfl, (BitVec.and_zero ..).symm, rfl⟩
    · cases hd
  case circle | circh | fcirc | fcirch | setfps | everyx =>
    split at hd
    · split at hd
      case h_1 hu =>
        cases hd
        rw [encodeU8_of_operandU8 hu]
        refine ⟨rfl, rfl, ?_, rfl⟩
        simp [Instr.msk, Opcode.maskBits, and_fullMask, and_halfMask]
      case h_2 => cases hd
    · cases hd

/-- R75, R76: an allowed header holds its row's colour and mask and no other bit. -/
theorem fields_of_headerAllowed {o : Opcode} {h : Word} (ha : headerAllowed o h = true) :
    hdrRsv h = 0 ∧ hdrMsk h &&& o.maskBits = hdrMsk h ∧
      (if o.takesColour then (colourOf (hdrCol h)).col else 0) = hdrCol h := by
  obtain ⟨hrsv, hcol, hmsk⟩ := headerAllowed_iff.1 ha
  refine ⟨hrsv, and_maskBits_of_allowed hmsk, ?_⟩
  cases hc : o.takesColour with
  | true => exact col_colourOf (by simpa [hc] using hcol)
  | false =>
    have hcol : hdrCol h = 0 := by simpa [hc] using hcol
    exact hcol.symm

/-- Settles O16: the header is the encoded one field by field, the operand words are the encoded ones. -/
theorem encodeOfDecode : Obligations.EncodeOfDecode := by
  intro ws rest i hd
  cases ws with
  | nil => cases hd
  | cons h ws =>
    cases decodeCase_of_decode hd with
    | operandsRead ho _ ha hr =>
      obtain ⟨hrsv, hmsk, hcol⟩ := fields_of_headerAllowed ha
      obtain ⟨rfl, rfl, imsk, icol⟩ := of_decodeOperands_ok hr
      rw [encode_eq, imsk, icol, hmsk, hcol, ← eq_encodeHeader ho hrsv, List.cons_append]

/-! ### Words of the spec's own -/

/-- Settles O13: the words of R92 evaluate to its commands. -/
theorem exampleStreamDecodes : Obligations.ExampleStreamDecodes := by
  unfold Obligations.ExampleStreamDecodes
  decide

/-- Settles O14: each word sequence evaluates to its command. -/
theorem tableWordsDecode : Obligations.TableWordsDecode := by
  unfold Obligations.TableWordsDecode
  and_intros <;> decide

end Sys2Proof

/-! PROOFS. R71, R80, R83: what the port does with the word it takes. -/

namespace Sys2Proof.Machine

open Sys2Proof.Statements

/-! ### The next word, by what the decoder says of CMD_BUF with it -/

/-- R83: the status a refusal by the decoder ends with; none while words are missing. -/
def statusOf : Reject → Option Status
  | .incomplete => none
  | .illegalOpcode => some .illegalOpcode
  | .reservedField => some .reservedField
  | .operandRange => some .operandRange

/-- R221: a block that is not faulted refuses a command with its status and result 0. -/
theorem refuse_sound {s : State} (hf : s.faulted = false) (st : Status) : s.refuse st = s.withResp st 0 := by
  simp [State.refuse, State.raiseError, hf]

section nextWord

variable {s : State} {ws : List Word} {rest : List Input}

theorem step_of_decode_ok (hn : NextWordGives s ws rest) {i : Instr} {tl : List Word} (hd : decode ws = .ok (i, tl)) :
    step s = exec i (taken s rest) := by
  obtain ⟨hb, w, hi, rfl⟩ := hn
  rw [step_word hb hi, hd]
  rfl

theorem step_of_decode_incomplete (hn : NextWordGives s ws rest) (hd : decode ws = .error .incomplete) :
    step s = .next { s with inputs := rest, cmdBuf := ws } := by
  obtain ⟨hb, w, hi, rfl⟩ := hn
  rw [step_word hb hi, hd]
  rfl

theorem step_of_decode_refused (hn : NextWordGives s ws rest) (hf : s.faulted = false) {e : Reject} {st : Status}
    (hd : decode ws = .error e) (he : statusOf e = some st) : step s = .next ((taken s rest).withResp st 0) := by
  obtain ⟨hb, w, hi, rfl⟩ := hn
  rw [step_word hb hi, hd]
  cases e with
  | incomplete => cases he
  | illegalOpcode | reservedField | operandRange =>
    cases he
    exact congrArg Host.Outcome.next (refuse_sound (s := taken s rest) hf _)

end nextWord

/-- Settles O7: R80's list is where the opcode map has no row, and the port refuses such a header at once. -/
theorem illegalOpcodeIsOneWord : Obligations.IllegalOpcodeIsOneWord := by
  intro h ws
  refine ⟨?_, fun hd s rest hf hn => ?_⟩
  · rw [decode_eq_illegalOpcode_iff, opcodeOf_eq_none_iff, hdrOpc_toNat]
  · have hone : decode [h] = .error .illegalOpcode := decode_eq_illegalOpcode_iff.2 (decode_eq_illegalOpcode_iff.1 hd)
    exact step_of_decode_refused hn hf hone rfl

/-- Settles O8: R79's match is the header check of the decoder, which a complete command has reached. -/
theorem reservedFieldRefused : Obligations.ReservedFieldRefused := by
  intro o h ops hm hl
  have hiff := decode_eq_reservedField_iff (opcodeOf_hdrOpc_of_mod hm) hl.ge
  exact ⟨fun hmatch hd => hiff.1 hd hmatch,
    fun hno s rest hf hn => step_of_decode_refused hn hf (hiff.2 hno) rfl⟩

/-- Settles O10: the decoder waits for the words an assigned header lacks. -/
theorem halfSentCommandWaits : Obligations.HalfSentCommandWaits := fun _ _ _ _ _ hm hl hn =>
  step_of_decode_incomplete hn (decode_incomplete (opcodeOf_hdrOpc_of_mod hm) hl)

/-- Settles O11: the accepting case of the port. -/
theorem stepRunsDecodedCommand : Obligations.StepRunsDecodedCommand := fun _ _ _ _ _ hn hd =>
  step_of_decode_ok hn hd

/-! ### A command written word by word -/

/-- R71: every proper beginning of a command waits. -/
theorem decode_incomplete_of_encode_eq_append {i : Instr} {ws suf : List Word} (he : encode i = ws ++ suf) (hs : suf ≠ []) :
    decode ws = .error .incomplete := by
  cases ws with
  | nil => rfl
  | cons h ws =>
    rw [encode_eq, List.cons_append, List.cons.injEq] at he
    obtain ⟨rfl, hops⟩ := he
    have hlen := length_operands i
    rw [hops, List.length_append] at hlen
    have hpos := List.length_pos_iff.2 hs
    exact decode_incomplete (o := i.opcode) (by simp) (by omega)

theorem run_succ {s t : State} (h : step s = .next t) (k : Nat) :
    Sys2Proof.core.run (k + 1) s = Sys2Proof.core.run k t := by
  have h : Sys2Proof.core.step s = .next t := h
  simp only [Host.Core.run, h]

/-- The words of a command still to be written run it, from the words in CMD_BUF: by induction on the words that follow the
next one. -/
theorem run_remaining_words (i : Instr) (rest : List Input) (suf : List Word) :
    ∀ (s : State) (w : Word), s.busy = false → encode i = s.cmdBuf ++ w :: suf →
      s.inputs = (w :: suf).map Input.word ++ rest →
      Sys2Proof.core.run (suf.length + 1) s = exec i (taken s rest) := by
  induction suf with
  | nil =>
    intro s w hb he hi
    have hd : decode (encode i) = .ok (i, []) := by simpa using decodeOfEncode i []
    obtain ⟨t, ht⟩ := exec_next i (taken s rest)
    have hstep : step s = exec i (taken s rest) := step_of_decode_ok ⟨hb, w, hi, he.symm⟩ hd
    rw [ht] at hstep ⊢
    exact run_succ hstep 0
  | cons w' suf ih =>
    intro s w hb he hi
    have he' : encode i = (s.cmdBuf ++ [w]) ++ w' :: suf := by simpa using he
    have hwait := step_of_decode_incomplete ⟨hb, w, hi, rfl⟩ (decode_incomplete_of_encode_eq_append he' (by simp))
    rw [List.length_cons, run_succ hwait]
    exact ih _ w' hb he' rfl

/-- Settles O12: the words of the encoding from an empty CMD_BUF. -/
theorem hostWritesRunCommand : Obligations.HostWritesRunCommand := by
  intro i s rest hb hc hi
  have hrun := run_remaining_words i rest i.operands s _ hb (by rw [hc, encode_eq]; rfl) (by rw [hi, encode_eq])
  rw [encode_eq, List.length_cons, hrun, taken, ← hc]

end Sys2Proof.Machine

/-! PROOFS. 40_pixel.md: the commands that plot a list known from their operands, SETPX, GETPX and FILL. -/

namespace Sys2Proof.Machine

open Sys2Proof.Statements

/-! ### A plot list as a command -/

/-- R230: a command of a block that is not faulted runs its body. -/
theorem exec_sound (i : Instr) {s : State} (hf : s.faulted = false) : exec i s = .next (execBody i s) := by
  rw [exec_eq_command, command_sound hf]

/-- R101, R120, R142, R145: a command with a plot list runs it when the block is not faulted. -/
theorem exec_eq_runPlots {i : Instr} {op : CombineOp} {ps : List Point} {s : State}
    (h : plotList i = some (op, ps)) (hf : s.faulted = false) : exec i s = .next (s.runPlots op ps) := by
  cases i with
  | setpx | line | circle | circh =>
    cases h
    exact exec_sound _ hf
  | _ => cases h

/-- R226: fault entry, in the words of the statements. -/
theorem raiseFault_eq_faultedWith (s : State) (c : FaultCause) : s.raiseFault c = faultedWith s c.code := rfl

/-- A response of 0 after a change of the framebuffer alone: the registers it leaves. -/
theorem respond_zero_frame {s u : State} (h : u = s.withFb u.fb) :
    u.respond 0 = { s with fb := u.fb, respStatus := 0x00, respResult := 0 } := by
  rw [h]
  rfl

/-- R100: a byte that holds no in-range point of the list is kept. -/
theorem fbByte_plotAll_of_forall_ne (op : CombineOp) (s : State) {ps : List Point} {k : Nat}
    (h : ∀ q ∈ ps, inRange s.params q = true → byteIndex s.params q ≠ k) :
    (s.plotAll op ps).fbByte k = s.fbByte k := by
  rw [fbByte_plotAll]
  induction ps with
  | nil => rfl
  | cons q ps ih =>
    obtain ⟨hq, hps⟩ := List.forall_mem_cons.1 h
    have hkeep : plotByte s.params op k (s.fbByte k) q = s.fbByte k := if_neg fun ⟨hr, hk, _⟩ => hq hr hk.symm
    rw [List.foldl_cons, hkeep, ih hps]

/-- R102: a plot list that does not fault draws each pixel as often as it stands in the list. -/
theorem drawn_plotAll (op : CombineOp) {s : State} (hp : s.params.Legal) (ps : List Point) :
    Drawn op (fun q => ps.count q) s ((s.plotAll op ps).respond 0) := by
  refine ⟨respond_zero_frame (plotAll_frame op s ps), fun _ hq => pixel_plotAll hp ps hq, fun _ hk => ?_⟩
  exact fbByte_plotAll_of_forall_ne op s fun q hq hr => hk q hr (List.count_pos_iff.2 hq)

/-- Settles O24: the plot list of the command, by `drawn_plotAll`. -/
theorem plottingCommandsDraw : Obligations.PlottingCommandsDraw := by
  intro i op ps s hi hf hp hok
  refine ⟨(s.plotAll op ps).respond 0, ?_, drawn_plotAll op hp ps⟩
  rw [exec_eq_runPlots hi hf, runPlots_ok hok]

/-- Settles O25: the check of R102 stands before the plots. -/
theorem plottingCommandsFault : Obligations.PlottingCommandsFault := by
  rintro i op ps s hi hf hs ⟨q, hq, ho⟩
  rw [exec_eq_runPlots hi hf, runPlots_fault hs hq ho, raiseFault_eq_faultedWith]
  rfl

/-! ### SETPX and GETPX of a point -/

section operands

variable {p : Params} {x y : Word}

/-- R73: an S16 operand that is not negative is its word. -/
theorem toNat_toInt_of_nonneg {w : Word} (h : 0 ≤ w.toInt) : w.toInt.toNat = w.toNat := by
  rw [BitVec.toInt_eq_toNat_cond] at h ⊢
  split at h <;> omega

/-- R20: the byte of an in-range point, from the operand words. -/
theorem byteIndex_operands (h : inRange p (x.toInt, y.toInt) = true) :
    byteIndex p (x.toInt, y.toInt) = y.toNat / 8 * p.width + x.toNat := by
  obtain ⟨hx, -, hy, -⟩ := (inRange_iff _ _).1 h
  simp only [byteIndex, toNat_toInt_of_nonneg hx, toNat_toInt_of_nonneg hy]

/-- R20: the bit of an in-range point, from the operand words. -/
theorem bitPos_operands (h : inRange p (x.toInt, y.toInt) = true) : bitPos (x.toInt, y.toInt) = y.toNat % 8 := by
  obtain ⟨-, -, hy, -⟩ := (inRange_iff _ _).1 h
  simp only [bitPos, toNat_toInt_of_nonneg hy]

end operands

section point

variable {s : State} {x y : Word} (hf : s.faulted = false)
include hf

/-- R101: SETPX is one plot when its list of one point does not fault. -/
theorem exec_setpx_ok (op : CombineOp) (h : s.params.safeMode = true ∨ inRange s.params (x.toInt, y.toInt) = true) :
    exec (.setpx op x y) s = .next ((s.plot op (x.toInt, y.toInt)).respond 0) := by
  rw [exec_eq_runPlots rfl hf, runPlots_ok (by simpa using h)]
  rfl

/-- R103: GETPX of an in-range point. -/
theorem exec_getpx_inRange (h : inRange s.params (x.toInt, y.toInt) = true) :
    exec (.getpx x y) s = .next (s.respond (if s.pixel (x.toInt, y.toInt) then 1 else 0)) :=
  (exec_sound _ hf).trans (congrArg _ (if_pos h))

/-- R103: GETPX of any other point. -/
theorem exec_getpx_outOfRange (h : inRange s.params (x.toInt, y.toInt) = false) :
    exec (.getpx x y) s = .next s.respondDraw :=
  (exec_sound _ hf).trans (congrArg _ (if_neg (Bool.eq_false_iff.1 h)))

/-- R103: GETPX of an in-range point after a command that changed the framebuffer alone. -/
theorem exec_getpx_after_drawing {u : State} (hu : u = s.withFb u.fb) (h : inRange s.params (x.toInt, y.toInt) = true) :
    exec (.getpx x y) (u.respond 0) = .next (u.respond (if u.pixel (x.toInt, y.toInt) then 1 else 0)) := by
  have hfu : u.faulted = false := by rw [hu, withFb_faulted, hf]
  have hin : inRange u.params (x.toInt, y.toInt) = true := by rw [hu, withFb_params, h]
  exact exec_getpx_inRange (s := u.respond 0) hfu hin

end point

/-- Settles O26: the in-range case by what a plot does to a byte read, the other by SAFE_MODE. -/
theorem setpxIsOnePlot : Obligations.SetpxIsOnePlot := by
  refine fun op x y s hf hp => ⟨fun hin => ?_, fun hout => ?_⟩
  · refine ⟨_, exec_setpx_ok hf op (.inr hin), respond_zero_frame (plot_frame ..), ?_, fun j hj => ?_⟩
    · have hlt := byteIndex_lt hp hin
      rw [← byteIndex_operands hin, ← bitPos_operands hin]
      exact (fbByte_plot ..).trans (if_pos ⟨hin, rfl, hlt⟩)
    · rw [← byteIndex_operands hin] at hj
      exact fbByte_plot_other hj
  · cases hs : s.params.safeMode with
    | true =>
      rw [exec_setpx_ok hf op (.inl hs), plot_of_not_inRange hout]
      rfl
    | false => exact plottingCommandsFault _ op _ s rfl hf hs ⟨_, List.mem_singleton_self _, hout⟩

/-- Settles O27: the two cases of GETPX. -/
theorem getpxReadsPixel : Obligations.GetpxReadsPixel := by
  refine fun x y s hf => ⟨fun hin => ?_, exec_getpx_outOfRange hf⟩
  rw [exec_getpx_inRange hf hin, State.pixel, byteIndex_operands hin, bitPos_operands hin]
  rfl

/-- Settles O28: the pixel a plot leaves at its own point. -/
theorem setpxThenGetpx : Obligations.SetpxThenGetpx := by
  intro op x y s hf hp hin
  refine ⟨_, _, exec_setpx_ok hf op (.inr hin), exec_getpx_after_drawing hf (plot_frame ..) hin, rfl, ?_⟩
  rw [State.respond, withResp_respResult, pixel_plot hp hin hin, if_pos rfl]
  cases op with
  | set | clear => rfl
  | invert => cases s.pixel (x.toInt, y.toInt) <;> rfl

/-! ### FILL -/

/-- R105: FILL of a block that is not faulted. -/
theorem exec_fill {s : State} (hf : s.faulted = false) (op : CombineOp) :
    exec (.fill op) s = .next ((s.fillAll op).respond 0) := exec_sound _ hf

@[simp] theorem fillAll_params (op : CombineOp) (s : State) : (s.fillAll op).params = s.params := by
  rw [fillAll_frame, withFb_params]

/-! R12: each operator with the mask of FILL. -/

@[simp] theorem combine_clear_allOnes (b : Byte) : combine .clear b 0xFF = 0x00 := BitVec.and_zero
@[simp] theorem combine_set_allOnes (b : Byte) : combine .set b 0xFF = 0xFF := BitVec.or_allOnes
@[simp] theorem combine_invert_allOnes (b : Byte) : combine .invert b 0xFF = ~~~b := BitVec.xor_allOnes

/-- Settles O29: each byte by the fold of FILL, the frame by `fillAll_frame`. -/
theorem fillCombinesEveryByte : Obligations.FillCombinesEveryByte := by
  refine fun op s hf => ⟨_, exec_fill hf op, respond_zero_frame (fillAll_frame op s), fun i => ?_⟩
  refine (fbByte_fillAll op s i).trans ?_
  cases op with
  | clear => rw [combine_clear_allOnes]
  | set => rw [combine_set_allOnes]
  | invert => rw [combine_invert_allOnes]

/-- R106: no pixel is ON after CLEAR. -/
theorem pixel_fillAll_clear {s : State} (hp : s.params.Legal) {q : Point} (hq : inRange s.params q = true) :
    (s.fillAll .clear).pixel q = false := by
  rw [State.pixel, fillAll_params, fbByte_fillAll, if_pos (byteIndex_lt hp hq), combine_clear_allOnes]
  exact BitVec.getLsbD_zero

/-- Settles O30: GETPX on the cleared buffer. -/
theorem clearThenGetpxIsOff : Obligations.ClearThenGetpxIsOff := by
  intro x y s hf hp hin
  refine ⟨_, _, exec_fill hf .clear, exec_getpx_after_drawing hf (fillAll_frame ..) hin, rfl, ?_⟩
  rw [State.respond, withResp_respResult, pixel_fillAll_clear hp hin]
  rfl

end Sys2Proof.Machine

/-! PROOFS. 41_line.md R120 to R122: the walk of LINE in closed form, and what follows of its points. -/

namespace Sys2Proof.Machine

open Sys2Proof.Statements

/-! ### The minor steps of the walk -/

/-- R121: how often the error has fallen below 0 in `k` turns of the walk, from the error `err`. -/
def minorSteps (dx dy err k : Nat) : Nat := (k * dy + dx - 1 - err) / dx

theorem minorSteps_zero (dx dy err : Nat) : minorSteps dx dy err 0 = 0 :=
  Nat.div_eq_zero_iff.2 (by omega)

/-- R121: a turn whose error stays at least 0. -/
theorem minorSteps_succ_of_le {dx dy err : Nat} (h : dy ≤ err) (k : Nat) :
    minorSteps dx dy err (k + 1) = minorSteps dx dy (err - dy) k := by
  unfold minorSteps
  rw [Nat.succ_mul]
  congr 1
  omega

/-- R121: a turn whose error falls below 0 and is raised by `dx`. -/
theorem minorSteps_succ_of_lt {dx dy err : Nat} (h : err < dy) (hdy : dy ≤ dx) (k : Nat) :
    minorSteps dx dy err (k + 1) = minorSteps dx dy (err + dx - dy) k + 1 := by
  unfold minorSteps
  rw [← Nat.add_div_right _ (by omega : 0 < dx), Nat.succ_mul]
  congr 1
  omega

/-- R121: over the whole walk the minor coordinate makes `dy` steps. -/
theorem minorSteps_self {dx dy err : Nat} (hdy : dy ≤ dx) (herr : err ≤ dx - 1) :
    minorSteps dx dy err dx = dy := by
  unfold minorSteps
  rcases Nat.eq_zero_or_pos dx with rfl | hdx
  · rw [Nat.div_zero]
    omega
  · rw [show dx * dy + dx - 1 - err = dx - 1 - err + dx * dy by omega, Nat.add_mul_div_left _ _ hdx,
      Nat.div_eq_of_lt (by omega), Nat.zero_add]

/-- R121: the loop, in closed form. The error stays below `dx`, or is 0 with `dx`. -/
theorem lineLoop_eq_map {dx dy err : Nat} (hdy : dy ≤ dx) (herr : err ≤ dx - 1) (ystep : Int) (n : Nat) (x y : Int) :
    lineLoop false dx dy ystep n x y err =
      (List.range n).map fun k : Nat => (x + k, y + ystep * (minorSteps dx dy err k : Int)) := by
  induction n generalizing x y err with
  | zero => rfl
  | succ n ih =>
    rw [List.range_succ_eq_map, List.map_cons, List.map_map, lineLoop]
    congr 1
    · simp [minorSteps_zero]
    · split
      next hneg =>
        have hlt : err < dy := by omega
        rw [show (err : Int) - dy + dx = ((err + dx - dy : Nat) : Int) by omega, ih (by omega)]
        refine List.map_congr_left fun k _ => Prod.ext (by simp only [Function.comp_apply]; omega) ?_
        simp only [Function.comp_apply, Nat.succ_eq_add_one, minorSteps_succ_of_lt hlt hdy]
        push_cast
        ring
      next hpos =>
        have hle : dy ≤ err := by omega
        rw [show (err : Int) - dy = ((err - dy : Nat) : Int) by omega, ih (by omega)]
        refine List.map_congr_left fun k _ => Prod.ext (by simp only [Function.comp_apply]; omega) ?_
        simp only [Function.comp_apply, Nat.succ_eq_add_one, minorSteps_succ_of_le hle]

/-- R121: the steep swap is undone as each point is plotted. -/
theorem lineLoop_steep (dx dy ystep : Int) (n : Nat) (x y err : Int) :
    lineLoop true dx dy ystep n x y err = (lineLoop false dx dy ystep n x y err).map Prod.swap := by
  induction n generalizing x y err with
  | zero => rfl
  | succ n ih =>
    simp only [lineLoop, List.map_cons, apply_ite (List.map Prod.swap), ih]
    rfl

theorem lineOrdered_steep (x0 y0 x1 y1 : Int) :
    lineOrdered true x0 y0 x1 y1 = (lineOrdered false x0 y0 x1 y1).map Prod.swap := by
  unfold lineOrdered lineRight
  rw [apply_ite (List.map Prod.swap)]
  simp only [lineLoop_steep]

/-- R121: the endpoints are put in x order, so their order makes no difference. -/
theorem lineOrdered_comm (steep : Bool) {x0 y0 x1 y1 : Int} (h : x0 = x1 → y0 = y1) :
    lineOrdered steep x0 y0 x1 y1 = lineOrdered steep x1 y1 x0 y0 := by
  unfold lineOrdered
  rcases Int.lt_trichotomy x0 x1 with hlt | heq | hgt
  · rw [if_neg (by omega), if_pos (by omega)]
  · obtain rfl := heq
    rw [h rfl]
  · rw [if_pos (by omega), if_neg (by omega)]

theorem linePoints_of_not_steep {x0 y0 x1 y1 : Int} (h : ¬ (y1 - y0).natAbs > (x1 - x0).natAbs) :
    linePoints x0 y0 x1 y1 = lineOrdered false x0 y0 x1 y1 := if_neg h

theorem linePoints_of_steep {x0 y0 x1 y1 : Int} (h : (y1 - y0).natAbs > (x1 - x0).natAbs) :
    linePoints x0 y0 x1 y1 = (lineOrdered false y0 x0 y1 x1).map Prod.swap :=
  (if_pos h).trans (lineOrdered_steep ..)

/-- R122, on the plot lists. -/
theorem linePoints_comm (x0 y0 x1 y1 : Int) : linePoints x0 y0 x1 y1 = linePoints x1 y1 x0 y0 := by
  by_cases h : (y1 - y0).natAbs > (x1 - x0).natAbs
  · rw [linePoints_of_steep h, linePoints_of_steep (by omega), lineOrdered_comm false (by omega)]
  · rw [linePoints_of_not_steep h, linePoints_of_not_steep (by omega), lineOrdered_comm false (by omega)]

/-- Settles O31: the two plot lists are equal. -/
theorem lineIsUndirected : Obligations.LineIsUndirected := by
  refine ⟨fun x0 y0 x1 y1 q => by rw [linePoints_comm], fun op x0 y0 x1 y1 s => ?_⟩
  have hbody : execBody (.line op x0 y0 x1 y1) = execBody (.line op x1 y1 x0 y0) :=
    funext fun u => congrArg (u.runPlots op) (linePoints_comm ..)
  rw [exec_eq_command, exec_eq_command, hbody]

/-! ### The points of a line that is not steep -/

/-- The minor coordinate, from the endpoints in order of the major one. -/
theorem minorAt_of_le {a0 a1 : Int} (h : a0 ≤ a1) (b0 b1 : Int) (k : Nat) :
    minorAt a0 b0 a1 b1 k =
      b0 + (if b0 < b1 then 1 else -1) *
        (minorSteps (a1 - a0).natAbs (b1 - b0).natAbs ((a1 - a0).natAbs / 2) k : Int) := by
  simp only [minorAt, minorSteps, if_neg (Int.not_lt.2 h)]

/-- R121: the walk starts at the end with the smaller major coordinate, whichever is named first. -/
theorem minorAt_comm {a0 a1 : Int} (h : a1 < a0) (b0 b1 : Int) : minorAt a0 b0 a1 b1 = minorAt a1 b1 a0 b0 := by
  funext k
  rw [minorAt_of_le (Int.le_of_lt h), minorAt, if_pos h, if_pos h,
    show (a1 - a0).natAbs = (a0 - a1).natAbs by omega, show (b1 - b0).natAbs = (b0 - b1).natAbs by omega]
  rfl

theorem minorAt_zero {a0 a1 : Int} (h : a0 ≤ a1) (b0 b1 : Int) : minorAt a0 b0 a1 b1 0 = b0 := by
  rw [minorAt_of_le h, minorSteps_zero]
  omega

/-- R121: the walk ends at the other end's minor coordinate. -/
theorem minorAt_last {a0 b0 a1 b1 : Int} (h : a0 ≤ a1) (hd : (b1 - b0).natAbs ≤ (a1 - a0).natAbs) :
    minorAt a0 b0 a1 b1 (a1 - a0).natAbs = b1 := by
  rw [minorAt_of_le h, minorSteps_self hd (by omega)]
  split <;> omega

section notSteep

variable {x0 y0 x1 y1 : Int} (hd : (y1 - y0).natAbs ≤ (x1 - x0).natAbs)
include hd

/-- R121: the walk between endpoints that stand in order. -/
theorem lineRight_eq_map (hx : x0 ≤ x1) :
    lineRight false x0 y0 x1 y1 =
      (List.range ((x1 - x0).natAbs + 1)).map fun k : Nat => (x0 + k, minorAt x0 y0 x1 y1 k) := by
  have hdx : x1 - x0 = ((x1 - x0).natAbs : Int) := by omega
  have herr : (x1 - x0).tdiv 2 = (((x1 - x0).natAbs / 2 : Nat) : Int) := by
    rw [Int.tdiv_eq_ediv_of_nonneg (by omega)]
    omega
  have hn : (x1 - x0).toNat = (x1 - x0).natAbs := by omega
  simp only [minorAt_of_le hx]
  rw [lineRight, herr, hn, ← lineLoop_eq_map hd (by omega), ← hdx]

/-- R120, R121: the points of a line that is not steep. -/
theorem lineOrdered_eq_map :
    lineOrdered false x0 y0 x1 y1 =
      (List.range ((x1 - x0).natAbs + 1)).map fun k : Nat => (min x0 x1 + k, minorAt x0 y0 x1 y1 k) := by
  unfold lineOrdered
  split
  next hgt =>
    rw [lineRight_eq_map (by omega) (Int.le_of_lt hgt), minorAt_comm hgt, min_eq_right (Int.le_of_lt hgt),
      show (x0 - x1).natAbs = (x1 - x0).natAbs by omega]
  next hle => rw [lineRight_eq_map hd (by omega), min_eq_left (by omega)]

theorem length_lineOrdered : (lineOrdered false x0 y0 x1 y1).length = (x1 - x0).natAbs + 1 := by
  rw [lineOrdered_eq_map hd, List.length_map, List.length_range]

/-- R121: "exactly one pixel is written per unit step along the dominant axis". As in the statement, the whole range is cast
to the integers and then mapped. -/
theorem map_fst_lineOrdered :
    (lineOrdered false x0 y0 x1 y1).map Prod.fst =
      (List.range (lineOrdered false x0 y0 x1 y1).length).map (fun k => min x0 x1 + (k : Int)) := by
  rw [length_lineOrdered hd, lineOrdered_eq_map hd, List.map_map, bind_pure_comp, List.map_eq_map,
    List.map_map]
  rfl

theorem map_snd_lineOrdered :
    (lineOrdered false x0 y0 x1 y1).map Prod.snd =
      (List.range (lineOrdered false x0 y0 x1 y1).length).map (minorAt x0 y0 x1 y1) := by
  rw [length_lineOrdered hd, lineOrdered_eq_map hd, List.map_map]
  rfl

/-- R120: the points are distinct, since their major coordinates are. -/
theorem nodup_lineOrdered : (lineOrdered false x0 y0 x1 y1).Nodup := by
  rw [lineOrdered_eq_map hd]
  refine List.nodup_range.map fun j k h => ?_
  have hfst : min x0 x1 + (j : Int) = min x0 x1 + (k : Int) := congrArg Prod.fst h
  omega

/-- R120: the endpoint named first is on the line. -/
theorem start_mem_lineOrdered : (x0, y0) ∈ lineOrdered false x0 y0 x1 y1 := by
  rw [lineOrdered_eq_map hd, List.mem_map]
  rcases le_or_gt x0 x1 with hle | hgt
  · exact ⟨0, List.mem_range.2 (by omega), Prod.ext (by simp only; omega) (minorAt_zero hle ..)⟩
  · refine ⟨(x0 - x1).natAbs, List.mem_range.2 (by omega), Prod.ext (by simp only; omega) ?_⟩
    rw [minorAt_comm hgt]
    exact minorAt_last (Int.le_of_lt hgt) (by omega)

end notSteep

/-! ### Steep lines -/

theorem start_mem_linePoints (x0 y0 x1 y1 : Int) : (x0, y0) ∈ linePoints x0 y0 x1 y1 := by
  by_cases h : (y1 - y0).natAbs > (x1 - x0).natAbs
  · rw [linePoints_of_steep h]
    exact List.mem_map_of_mem (start_mem_lineOrdered (by omega))
  · rw [linePoints_of_not_steep h]
    exact start_mem_lineOrdered (by omega)

/-- Settles O32: the closed form of the walk; a steep line is one that is not steep with its coordinates swapped. -/
theorem linePointsExact : Obligations.LinePointsExact := by
  intro x0 y0 x1 y1
  have hend : (x1, y1) ∈ linePoints x0 y0 x1 y1 := linePoints_comm .. ▸ start_mem_linePoints ..
  by_cases h : (y1 - y0).natAbs > (x1 - x0).natAbs
  · have hd : (x1 - x0).natAbs ≤ (y1 - y0).natAbs := Nat.le_of_lt h
    refine ⟨?_, ?_, start_mem_linePoints .., hend, fun hn => absurd h hn, fun _ => ?_⟩
    all_goals rw [linePoints_of_steep h]
    · exact (nodup_lineOrdered hd).map Prod.swap_injective
    · rw [List.length_map, length_lineOrdered hd, max_eq_right hd]
    · rw [List.length_map, ← map_fst_lineOrdered hd, ← map_snd_lineOrdered hd, List.map_map, List.map_map]
      exact ⟨rfl, rfl⟩
  · have hd : (y1 - y0).natAbs ≤ (x1 - x0).natAbs := Nat.not_lt.1 h
    refine ⟨?_, ?_, start_mem_linePoints .., hend, fun _ => ?_, fun hs => absurd hs h⟩
    all_goals rw [linePoints_of_not_steep h]
    · exact nodup_lineOrdered hd
    · rw [length_lineOrdered hd, max_eq_left hd]
    · exact ⟨map_fst_lineOrdered hd, map_snd_lineOrdered hd⟩

end Sys2Proof.Machine

/-! PROOFS. 41_line.md R124 to R128: the fast runs HLINE and VLINE, and sequences of drawing commands. -/

namespace Sys2Proof.Machine

open Sys2Proof.Statements

/-! ### A clamped run is the run without its points out of range -/

theorem pairwise_intRange (a b : Int) : (Int.range a b).Pairwise (· < ·) :=
  List.pairwise_map.2 (List.pairwise_lt_range.imp fun h => by omega)

theorem nodup_intRange (a b : Int) : (Int.range a b).Nodup :=
  (pairwise_intRange a b).imp Int.ne_of_lt

/-- The first `n` numbers as integers, as the statements write them: the range cast in the list monad. -/
theorem coe_range (n : Nat) : (do let k ← List.range n; pure (k : Int)) = (List.range n).map Nat.cast := by
  rw [bind_pure_comp, List.map_eq_map]

theorem intRange_add_natCast (a : Int) (n : Nat) :
    Int.range a (a + n) = ((List.range n).map Nat.cast).map fun k : Int => a + k := by
  rw [Int.range, add_sub_cancel_left, Int.toNat_natCast, List.map_map]
  rfl

theorem filter_intRange (a b m : Int) :
    (Int.range a b).filter (fun v => decide (0 ≤ v ∧ v < m)) = Int.range (max a 0) (min b m) := by
  refine ((pairwise_intRange a b).filter _).eq_of_mem_iff (pairwise_intRange _ _) fun v => ?_
  simp only [List.mem_filter, Int.mem_range_iff, decide_eq_true_eq]
  omega

section run

variable {p : Params} {f : Int → Point} {m : Int} {visible : Prop} [Decidable visible]

/-- R128: a run along `f` whose points are in range on a visible line alone, between 0 and `m`. -/
theorem filter_run (h : ∀ v, inRange p (f v) = true ↔ visible ∧ 0 ≤ v ∧ v < m) (a b : Int) :
    ((Int.range a b).map f).filter (inRange p) =
      if visible then (Int.range (max a 0) (min b m)).map f else [] := by
  rw [List.filter_map]
  split
  next hv =>
    rw [← filter_intRange]
    refine congrArg _ (List.filter_congr fun v _ => Bool.eq_iff_iff.2 ?_)
    simp [h, hv]
  next hv => simp [h, hv]

/-- A run draws each of its points once. -/
theorem count_run (hf : Function.Injective f) (a b : Int) {q : Point} (hq : inRange p q = true) :
    (((Int.range a b).map f).filter (inRange p)).count q = if q ∈ (Int.range a b).map f then 1 else 0 := by
  rw [List.count_filter hq, ((nodup_intRange a b).map hf).count]

end run

theorem hspanPoints_eq_filter (p : Params) (x y w : Int) :
    hspanPoints p x y w = ((Int.range x (x + w)).map fun v => (v, y)).filter (inRange p) := by
  have hr (v : Int) : inRange p (v, y) = true ↔ (0 ≤ y ∧ y < p.height) ∧ 0 ≤ v ∧ v < p.width := by
    rw [inRange_iff]
    tauto
  rw [filter_run hr, hspanPoints, coe_range, List.map_map, Int.range, List.map_map]
  rfl

theorem spanPoints_eq_filter (p : Params) (x y h : Int) :
    spanPoints p x y h = ((Int.range y (y + h)).map fun v => (x, v)).filter (inRange p) := by
  have hr (v : Int) : inRange p (x, v) = true ↔ (0 ≤ x ∧ x < p.width) ∧ 0 ≤ v ∧ v < p.height := by
    rw [inRange_iff]
    tauto
  rw [filter_run hr, spanPoints, coe_range, List.map_map, Int.range, List.map_map]
  rfl

/-- R124: how often HSpan plots a point of the screen. -/
theorem count_hspanPoints {p : Params} {q : Point} (hq : inRange p q = true) (x y w : Int) :
    (hspanPoints p x y w).count q = if q.2 = y ∧ x ≤ q.1 ∧ q.1 < x + w then 1 else 0 := by
  rw [hspanPoints_eq_filter, count_run (fun u v h => congrArg Prod.fst h) _ _ hq]
  refine if_congr (List.mem_map.trans ⟨?_, fun ⟨hy, hx⟩ => ⟨q.1, Int.mem_range_iff.2 hx, Prod.ext rfl hy.symm⟩⟩) rfl rfl
  rintro ⟨v, hv, rfl⟩
  exact ⟨rfl, Int.mem_range_iff.1 hv⟩

/-- R126: how often Span plots a point of the screen. -/
theorem count_spanPoints {p : Params} {q : Point} (hq : inRange p q = true) (x y h : Int) :
    (spanPoints p x y h).count q = if q.1 = x ∧ y ≤ q.2 ∧ q.2 < y + h then 1 else 0 := by
  rw [spanPoints_eq_filter, count_run (fun u v h => congrArg Prod.snd h) _ _ hq]
  refine if_congr (List.mem_map.trans ⟨?_, fun ⟨hx, hy⟩ => ⟨q.2, Int.mem_range_iff.2 hy, Prod.ext hx.symm rfl⟩⟩) rfl rfl
  rintro ⟨v, hv, rfl⟩
  exact ⟨rfl, Int.mem_range_iff.1 hv⟩

/-! ### What the fast runs draw -/

/-- `Drawn` speaks of the counts of in-range points alone. -/
theorem drawn_congr {op : CombineOp} {m n : Point → Nat} {s t : State}
    (h : ∀ q, inRange s.params q = true → m q = n q) (hd : Drawn op m s t) : Drawn op n s t := by
  obtain ⟨hframe, hpixel, hbyte⟩ := hd
  exact ⟨hframe, fun q hq => h q hq ▸ hpixel q hq, fun i hi => hbyte i fun q hq hn => hi q hq (h q hq ▸ hn)⟩

/-- Settles O33: each command plots its clamped run, which holds each visible pixel of the run once. -/
theorem fastRunsDrawClippedRun : Obligations.FastRunsDrawClippedRun := by
  intro op x y n s hf hp
  exact ⟨⟨_, exec_sound _ hf, drawn_congr (fun q hq => count_hspanPoints hq ..) (drawn_plotAll op hp _)⟩,
    ⟨_, exec_sound _ hf, drawn_congr (fun q hq => count_spanPoints hq ..) (drawn_plotAll op hp _)⟩⟩

/-! ### Sequences of drawing commands -/

theorem plot_withResp (op : CombineOp) (s : State) (st : Status) (v : DWord) (q : Point) :
    (s.withResp st v).plot op q = (s.plot op q).withResp st v := by
  simp only [State.plot, State.combineAt, apply_ite (State.withResp · st v)]
  rfl

theorem plotAll_withResp (op : CombineOp) (s : State) (st : Status) (v : DWord) (ps : List Point) :
    (s.withResp st v).plotAll op ps = (s.plotAll op ps).withResp st v :=
  List.foldl_hom (State.withResp · st v) fun u q => plot_withResp op u st v q

@[simp] theorem plotAll_faulted (op : CombineOp) (s : State) (ps : List Point) :
    (s.plotAll op ps).faulted = s.faulted := by
  rw [plotAll_frame, withFb_faulted]

/-- R102: points out of range are dropped. -/
theorem plotAll_filter_inRange (op : CombineOp) (s : State) (ps : List Point) :
    s.plotAll op (ps.filter (inRange s.params)) = s.plotAll op ps := by
  induction ps generalizing s with
  | nil => rfl
  | cons q ps ih =>
    have ih := ih (s.plot op q)
    rw [plot_params] at ih
    cases hq : inRange s.params q with
    | true => rw [List.filter_cons_of_pos hq, plotAll_cons, plotAll_cons, ih]
    | false =>
      rw [plot_of_not_inRange hq] at ih
      rw [List.filter_cons_of_neg (by simp [hq]), plotAll_cons, plot_of_not_inRange hq, ih]

/-- A command that plots the list `ps` and answers OK and 0 in a block of parameters `p` that is not faulted. -/
def Plots (op : CombineOp) (p : Params) (i : Instr) (ps : List Point) : Prop :=
  ∀ s : State, s.params = p → s.faulted = false → exec i s = .next ((s.plotAll op ps).respond 0)

/-- R102: a command with a plot list plots it where it does not fault. -/
theorem plots_of_plotList {op : CombineOp} {p : Params} {i : Instr} {ps : List Point} (hi : plotList i = some (op, ps))
    (h : p.safeMode = true ∨ ∀ q ∈ ps, inRange p q = true) : Plots op p i ps := by
  rintro s rfl hf
  rw [exec_eq_runPlots hi hf, runPlots_ok h]

/-- R60: the framebuffer after a sequence of commands that plot. -/
theorem execAll_plots {op : CombineOp} {is : List Instr} {pss : List (List Point)} {s : State}
    (h : List.Forall₂ (Plots op s.params) is pss) (hf : s.faulted = false) :
    ∃ t, execAll is s = .next t ∧ t.fb = (s.plotAll op pss.flatten).fb := by
  induction is generalizing s pss with
  | nil =>
    obtain rfl := List.forall₂_nil_left_iff.1 h
    exact ⟨s, rfl, rfl⟩
  | cons i is ih =>
    obtain ⟨ps, pss, hi, his, rfl⟩ := List.forall₂_cons_left_iff.1 h
    obtain ⟨t, ht, hfb⟩ := ih (s := (s.plotAll op ps).respond 0) (by simpa [State.respond] using his)
      (by simpa [State.respond] using hf)
    refine ⟨t, ?_, ?_⟩
    · rw [execAll, hi s rfl hf]
      exact ht
    · rw [hfb, State.respond, plotAll_withResp, List.flatten_cons, plotAll_append]
      rfl

/-! ### HLINE and VLINE as sequences of SETPX -/

theorem toInt_ofInt_operand {v : Int} (hlo : -32768 ≤ v) (hhi : v ≤ 32767) : (BitVec.ofInt 16 v).toInt = v :=
  BitVec.toInt_ofInt_eq_self (by decide) hlo (by omega)

/-- The SETPX commands `g v` of the points `f v` along a run leave the framebuffer of the run's plots. Coordinates that no
operand holds have no command; they are out of range. -/
theorem execAll_setpx_run {op : CombineOp} {s : State} {vs : List Int} {f : Int → Point} {g : Word → Instr}
    (hg : ∀ w, plotList (g w) = some (op, [f w.toInt])) (hlo : ∀ v ∈ vs, -32768 ≤ v)
    (hhi : ∀ v, inRange s.params (f v) = true → v ≤ 32767)
    (hok : s.params.safeMode = true ∨ ∀ v ∈ vs, inRange s.params (f v) = true) (hf : s.faulted = false) :
    ∃ t, execAll ((vs.filter fun v => decide (v ≤ 32767)).map fun v => g (BitVec.ofInt 16 v)) s = .next t ∧
      t.fb = (s.plotAll op (vs.map f)).fb := by
  have hplots : ∀ v ∈ vs.filter fun v => decide (v ≤ 32767), Plots op s.params (g (BitVec.ofInt 16 v)) [f v] := by
    intro v hv
    obtain ⟨hmem, hle⟩ := List.mem_filter.1 hv
    refine plots_of_plotList ?_ (hok.imp_right fun h => List.forall_mem_singleton.2 (h v hmem))
    rw [hg, toInt_ofInt_operand (hlo v hmem) (of_decide_eq_true hle)]
  obtain ⟨t, ht, hfb⟩ := execAll_plots
    (List.forall₂_map_left_iff.2 (List.forall₂_map_right_iff.2 (List.forall₂_same.2 hplots))) hf
  have hsame : ((vs.filter fun v => decide (v ≤ 32767)).map f).filter (inRange s.params) =
      (vs.map f).filter (inRange s.params) := by
    rw [List.filter_map, List.filter_filter, List.filter_map]
    refine congrArg _ (List.filter_congr fun v _ => Bool.eq_iff_iff.2 ?_)
    simpa using hhi v
  refine ⟨t, ht, hfb.trans ?_⟩
  rw [← List.flatMap_def, ← List.map_eq_flatMap, ← plotAll_filter_inRange, hsame, plotAll_filter_inRange]

/-- R125, R127: a command `i` that plots the run along `f` from `a`, as far as it is in range, has the end state of the SETPX
commands along the run. -/
theorem fastRun_is_setpx_sequence {op : CombineOp} {s : State} {i : Instr} {a : Int} {n : Nat} {f : Int → Point}
    {g : Word → Instr} (hi : exec i s = .next ((s.plotAll op ((Int.range a (a + n)).map f)).respond 0))
    (hg : ∀ w, plotList (g w) = some (op, [f w.toInt])) (ha : -32768 ≤ a)
    (hhi : ∀ v, inRange s.params (f v) = true → v ≤ 32767)
    (hok : s.params.safeMode = true ∨ ∀ k < n, inRange s.params (f (a + (k : Int))) = true) (hf : s.faulted = false) :
    ∃ t u,
      execAll (((List.range n).filter fun k => decide (a + (k : Int) ≤ 32767)).map fun k =>
        g (BitVec.ofInt 16 (a + (k : Int)))) s = .next t ∧
      exec i s = .next u ∧
      u.fb = t.fb ∧ u = { s with fb := t.fb, respStatus := 0x00, respResult := 0 } := by
  have hok' : s.params.safeMode = true ∨ ∀ v ∈ Int.range a (a + n), inRange s.params (f v) = true := by
    refine hok.imp_right fun h v hv => ?_
    obtain ⟨hav, hvn⟩ := Int.mem_range_iff.1 hv
    have := h (v - a).toNat (by omega)
    rwa [Int.toNat_of_nonneg (by omega), add_sub_cancel] at this
  obtain ⟨t, ht, hfb⟩ := execAll_setpx_run hg (fun v hv => ha.trans (Int.mem_range_iff.1 hv).1) hhi hok' hf
  rw [intRange_add_natCast, List.filter_map, List.map_map] at ht
  rw [coe_range]
  exact ⟨t, _, ht, hi, hfb.symm, hfb ▸ respond_zero_frame (plotAll_frame ..)⟩

/-- R124: HLINE plots its run, as far as it is in range. -/
theorem exec_hline_eq {s : State} (hf : s.faulted = false) (op : CombineOp) (x y w : Word) :
    exec (.hline op x y w) s =
      .next ((s.plotAll op ((Int.range x.toInt (x.toInt + w.toNat)).map fun v => (v, y.toInt))).respond 0) := by
  rw [exec_sound _ hf, execBody, hspanPoints_eq_filter, plotAll_filter_inRange]
  rfl

/-- R126: VLINE plots its run, as far as it is in range. -/
theorem exec_vline_eq {s : State} (hf : s.faulted = false) (op : CombineOp) (x y ht : Word) :
    exec (.vline op x y ht) s =
      .next ((s.plotAll op ((Int.range y.toInt (y.toInt + ht.toNat)).map fun v => (x.toInt, v))).respond 0) := by
  rw [exec_sound _ hf, execBody, spanPoints_eq_filter, plotAll_filter_inRange]
  rfl

/-- Settles O34: the row's points are those of the SETPX commands; WIDTH is at most 32767. -/
theorem hlineIsSetpxSequence : Obligations.HlineIsSetpxSequence := by
  intro op x y w s hf ⟨_, hwidth, _⟩ hok
  refine fastRun_is_setpx_sequence (exec_hline_eq hf ..) (g := (.setpx op · y)) (fun _ => rfl) (BitVec.le_toInt x)
    (fun v hv => ?_) hok hf
  obtain ⟨-, hlt, -⟩ := (inRange_iff _ _).1 hv
  omega

/-- Settles O35: the column's points are those of the SETPX commands; HEIGHT is at most 32760. -/
theorem vlineIsSetpxSequence : Obligations.VlineIsSetpxSequence := by
  intro op x y n s hf ⟨_, _, _, hheight, _⟩ hok
  refine fastRun_is_setpx_sequence (exec_vline_eq hf ..) (g := (.setpx op x ·)) (fun _ => rfl) (BitVec.le_toInt y)
    (fun v hv => ?_) hok hf
  obtain ⟨-, -, -, hlt⟩ := (inRange_iff _ _).1 hv
  omega

end Sys2Proof.Machine

/-! PROOFS. 42_circle.md: the walk of R141, how often CIRCLE and CIRCH plot a point, and the spans of FCIRC and FCIRCH. -/

namespace Sys2Proof.Machine

open Sys2Proof.Statements

/-! ### The points of a step, quadrant by quadrant -/

/-- The two points of the step `d` in the quadrant of the signs `sx` and `sy` (R143, R146). -/
def quadrantPoints (x0 y0 sx sy : Int) (d : Point) : List Point :=
  [(x0 + sx * d.1, y0 + sy * d.2), (x0 + sx * d.2, y0 + sy * d.1)]

theorem count_quadrantPoints (x0 y0 sx sy : Int) (d q : Point) :
    (quadrantPoints x0 y0 sx sy d).count q = quadrantCount sx sy (q.1 - x0, q.2 - y0) d := by
  have hoff (a b : Int) : (x0 + a, y0 + b) = q ↔ (q.1 - x0, q.2 - y0) = (a, b) := by
    simp only [Prod.ext_iff]
    omega
  simp only [quadrantPoints, quadrantCount, List.count_cons, List.count_nil, beq_iff_eq, hoff]
  omega

/-- The points of a quadrant lie on its side of both axes through the centre. -/
theorem side_of_mem_quadrantPoints {x0 y0 sx sy : Int} {d q : Point} (h1 : 0 ≤ d.1) (h2 : 0 ≤ d.2)
    (h : q ∈ quadrantPoints x0 y0 sx sy d) :
    ∃ a b : Int, 0 ≤ a ∧ 0 ≤ b ∧ q.1 = x0 + sx * a ∧ q.2 = y0 + sy * b := by
  rcases List.mem_pair.1 h with rfl | rfl
  · exact ⟨_, _, h1, h2, rfl, rfl⟩
  · exact ⟨_, _, h2, h1, rfl, rfl⟩

/-- How often one step plots the offset `e` from the centre, all quadrants together (R143). -/
def octantCount (e d : Point) : Nat :=
  quadrantCount 1 1 e d + quadrantCount (-1) 1 e d + quadrantCount 1 (-1) e d + quadrantCount (-1) (-1) e d

/-- R143: the eight points of a step are those of its four quadrants. -/
theorem count_octantPoints (x0 y0 : Int) (d q : Point) :
    (octantPoints x0 y0 d).count q = octantCount (q.1 - x0, q.2 - y0) d := by
  simp only [octantCount, ← count_quadrantPoints, octantPoints, quadrantPoints, one_mul, neg_one_mul, ← sub_eq_add_neg,
    List.count_cons, List.count_nil]
  omega

/-- R146: the mask's bits select the quadrants of a step. Left of the centre its two points stand in the other order. -/
theorem cornerStep_eq_quadrants (x0 y0 : Int) (m : BitVec 4) (d : Point) :
    cornerStep x0 y0 m d =
      (if m.getLsbD 2 then quadrantPoints x0 y0 1 1 d else [])
        ++ (if m.getLsbD 1 then quadrantPoints x0 y0 1 (-1) d else [])
        ++ (if m.getLsbD 3 then quadrantPoints x0 y0 (-1) 1 d.swap else [])
        ++ (if m.getLsbD 0 then quadrantPoints x0 y0 (-1) (-1) d.swap else []) := by
  simp only [cornerStep, quadrantPoints, Prod.fst_swap, Prod.snd_swap, one_mul, neg_one_mul, ← sub_eq_add_neg]

theorem quadrantCount_step_swap (sx sy : Int) (e d : Point) : quadrantCount sx sy e d.swap = quadrantCount sx sy e d :=
  Nat.add_comm ..

theorem count_cornerStep (x0 y0 : Int) (m : BitVec 4) (d q : Point) :
    (cornerStep x0 y0 m d).count q =
      (if m.getLsbD 0 then quadrantCount (-1) (-1) (q.1 - x0, q.2 - y0) d else 0)
        + (if m.getLsbD 1 then quadrantCount 1 (-1) (q.1 - x0, q.2 - y0) d else 0)
        + (if m.getLsbD 2 then quadrantCount 1 1 (q.1 - x0, q.2 - y0) d else 0)
        + (if m.getLsbD 3 then quadrantCount (-1) 1 (q.1 - x0, q.2 - y0) d else 0) := by
  simp only [cornerStep_eq_quadrants, List.count_append, apply_ite (List.count q), count_quadrantPoints,
    quadrantCount_step_swap, List.count_nil]
  omega

/-! ### How often CIRCLE plots a point -/

/-- R143: a step `(0, r)` would plot each of the four axis points twice. -/
theorem two_mul_circleCount (r : Nat) (e : Point) :
    2 * circleCount r e = octantCount e (0, r) + 2 * ((midpointSteps r).map (octantCount e)).sum := by
  have haxis : octantCount e (0, r) = 2 * ((if e = (0, (r : Int)) then 1 else 0) + (if e = (0, -(r : Int)) then 1 else 0)
      + (if e = ((r : Int), 0) then 1 else 0) + (if e = (-(r : Int), 0) then 1 else 0)) := by
    simp only [octantCount, quadrantCount, mul_zero, one_mul, neg_one_mul]
    omega
  rw [haxis, ← Nat.mul_add]
  rfl

theorem count_circlePoints (x0 y0 : Int) (r : Nat) (q : Point) :
    (circlePoints x0 y0 r).count q = circleCount r (q.1 - x0, q.2 - y0) := by
  have haxis : 2 * List.count q [(x0, y0 + (r : Int)), (x0, y0 - r), (x0 + r, y0), (x0 - r, y0)] =
      (octantPoints x0 y0 (0, r)).count q := by
    simp only [octantPoints, List.count_cons, List.count_nil, add_zero, sub_zero]
    omega
  have hsteps : List.count q ∘ octantPoints x0 y0 = octantCount (q.1 - x0, q.2 - y0) :=
    funext fun d => count_octantPoints x0 y0 d q
  have htwo := two_mul_circleCount r (q.1 - x0, q.2 - y0)
  rw [← count_octantPoints, ← haxis] at htwo
  rw [circlePoints, List.count_append, List.count_flatMap, hsteps]
  omega

/-- R141: mirrored left to right, a step's points in a quadrant are its points in the quadrant beside it. -/
theorem quadrantCount_neg_fst (sx sy dx dy : Int) (d : Point) :
    quadrantCount sx sy (-dx, dy) d = quadrantCount (-sx) sy (dx, dy) d := by
  simp only [quadrantCount, Prod.ext_iff, neg_mul, neg_eq_iff_eq_neg]

theorem quadrantCount_neg_snd (sx sy dx dy : Int) (d : Point) :
    quadrantCount sx sy (dx, -dy) d = quadrantCount sx (-sy) (dx, dy) d := by
  simp only [quadrantCount, Prod.ext_iff, neg_mul, neg_eq_iff_eq_neg]

/-- R141: mirrored across the diagonal, the two points of a step change places. -/
theorem quadrantCount_swap (sx sy dx dy : Int) (d : Point) :
    quadrantCount sx sy (dy, dx) d = quadrantCount sy sx (dx, dy) d := by
  simp only [quadrantCount, Prod.ext_iff, and_comm]
  omega

/-- An offset that each step plots as often as another is plotted by CIRCLE as often. -/
theorem circleCount_congr {e e' : Point} (h : ∀ d, octantCount e d = octantCount e' d) (r : Nat) :
    circleCount r e = circleCount r e' := by
  have hr := two_mul_circleCount r e
  rw [funext h, ← two_mul_circleCount] at hr
  exact Nat.eq_of_mul_eq_mul_left two_pos hr

theorem circleCount_neg_fst (r : Nat) (dx dy : Int) : circleCount r (-dx, dy) = circleCount r (dx, dy) := by
  refine circleCount_congr (fun d => ?_) r
  simp only [octantCount, quadrantCount_neg_fst, neg_neg]
  omega

theorem circleCount_neg_snd (r : Nat) (dx dy : Int) : circleCount r (dx, -dy) = circleCount r (dx, dy) := by
  refine circleCount_congr (fun d => ?_) r
  simp only [octantCount, quadrantCount_neg_snd, neg_neg]
  omega

theorem circleCount_swap (r : Nat) (dx dy : Int) : circleCount r (dy, dx) = circleCount r (dx, dy) := by
  refine circleCount_congr (fun d => ?_) r
  simp only [octantCount, quadrantCount_swap]
  omega

/-- Settles O36: the counts of the offset, and the mirrors of the offset. -/
theorem circleIsEightWaySymmetric : Obligations.CircleIsEightWaySymmetric := by
  intro x0 y0 r dx dy
  simp only [count_circlePoints, add_sub_cancel_left, sub_sub_cancel_left, circleCount_neg_fst, circleCount_neg_snd,
    circleCount_swap r dx dy, and_self]

/-! ### The quadrants of CIRCH -/

theorem count_cornerPoints (x0 y0 : Int) (r : Nat) (m : BitVec 4) (q : Point) :
    (cornerPoints x0 y0 r m).count q = cornerCount r m (q.1 - x0, q.2 - y0) := by
  rw [cornerPoints, List.count_flatMap, cornerCount]
  exact congrArg List.sum (List.map_congr_left fun d _ => count_cornerStep x0 y0 m d q)

/-- Settles O38: each step's corner points under mask 15 are a reordering of its eight points. -/
theorem circhFullMaskIsCircleWithoutAxis : Obligations.CirchFullMaskIsCircleWithoutAxis := by
  refine ⟨fun x0 y0 r => ?_, fun x0 y0 r => List.flatMap_eq_nil_iff.2 fun d _ => rfl, fun x0 y0 m => rfl⟩
  refine List.Perm.flatMap_left (midpointSteps r) fun d _ => List.perm_iff_count.2 fun q => ?_
  have hfull : (cornerStep x0 y0 15 d).count q =
      quadrantCount (-1) (-1) (q.1 - x0, q.2 - y0) d + quadrantCount 1 (-1) (q.1 - x0, q.2 - y0) d
        + quadrantCount 1 1 (q.1 - x0, q.2 - y0) d + quadrantCount (-1) 1 (q.1 - x0, q.2 - y0) d := count_cornerStep ..
  rw [hfull, count_octantPoints, octantCount]
  omega

/-- R146: the quadrants of a mask add up. -/
theorem cornerCount_eq_sum (r : Nat) (m : BitVec 4) (e : Point) :
    cornerCount r m e =
      (if m.getLsbD 0 then cornerCount r 1 e else 0) + (if m.getLsbD 1 then cornerCount r 2 e else 0)
        + (if m.getLsbD 2 then cornerCount r 4 e else 0) + (if m.getLsbD 3 then cornerCount r 8 e else 0) := by
  have hsum (c : Prop) [Decidable c] (f : Point → Nat) :
      ((midpointSteps r).map fun d => if c then f d else 0).sum = if c then ((midpointSteps r).map f).sum else 0 := by
    split <;> simp
  simp [cornerCount, List.sum_map_add, hsum]

/-- R146: one mask bit selects one quadrant. -/
theorem cornerStep_subset_quadrant (x0 y0 : Int) :
    (∀ d, cornerStep x0 y0 1 d ⊆ quadrantPoints x0 y0 (-1) (-1) d) ∧
      (∀ d, cornerStep x0 y0 2 d ⊆ quadrantPoints x0 y0 1 (-1) d) ∧
      (∀ d, cornerStep x0 y0 4 d ⊆ quadrantPoints x0 y0 1 1 d) ∧
      (∀ d, cornerStep x0 y0 8 d ⊆ quadrantPoints x0 y0 (-1) 1 d) := by
  simp [cornerStep_eq_quadrants, quadrantPoints]

/-- A mask that selects one quadrant plots on that quadrant's side of both axes: no step has a negative offset. -/
theorem side_of_mem_cornerPoints {x0 y0 : Int} {r : Nat} {m : BitVec 4} {sx sy : Int} {q : Point}
    (hm : ∀ d, cornerStep x0 y0 m d ⊆ quadrantPoints x0 y0 sx sy d) (hq : q ∈ cornerPoints x0 y0 r m) :
    ∃ a b : Int, 0 ≤ a ∧ 0 ≤ b ∧ q.1 = x0 + sx * a ∧ q.2 = y0 + sy * b := by
  obtain ⟨d, hd, hqd⟩ := List.mem_flatMap.1 hq
  obtain ⟨hx, -, -, hy⟩ := midpointLoop_bounds le_rfl hd
  exact side_of_mem_quadrantPoints (Int.le_of_lt hx) hy (hm d hqd)

/-- Settles O39: the counts of each step, summed; a point plotted for one bit is on its quadrant's side of both axes. -/
theorem circhMaskSelectsQuadrants : Obligations.CirchMaskSelectsQuadrants := by
  intro x0 y0 r m q
  obtain ⟨hupperLeft, hupperRight, hlowerRight, hlowerLeft⟩ := cornerStep_subset_quadrant x0 y0
  refine ⟨count_cornerPoints .., ?_, fun hq => ?_, fun hq => ?_, fun hq => ?_, fun hq => ?_⟩
  · simp only [count_cornerPoints]
    exact cornerCount_eq_sum ..
  · obtain ⟨a, b, ha, hb, hx, hy⟩ := side_of_mem_cornerPoints hupperLeft hq
    omega
  · obtain ⟨a, b, ha, hb, hx, hy⟩ := side_of_mem_cornerPoints hupperRight hq
    omega
  · obtain ⟨a, b, ha, hb, hx, hy⟩ := side_of_mem_cornerPoints hlowerRight hq
    omega
  · obtain ⟨a, b, ha, hb, hx, hy⟩ := side_of_mem_cornerPoints hlowerLeft hq
    omega

/-! ### The walk by its recurrence -/

/-- R141: the offsets a turn of the walk of radius `r` adds after `d`. -/
def nextOffset (r : Nat) (d : Point) : Point := (d.1 + 1, if 0 ≤ decisionAt r d then d.2 - 1 else d.2)

/-- R141: `n` turns of the walk of radius `r` from the offsets `d`, with `f`, `ddx` and `ddy` in closed form. -/
def walkFrom (r n : Nat) (d : Point) : List Point :=
  midpointLoop n (decisionAt r d) (2 * d.1 + 1) (-2 * d.2) d.1 d.2

theorem midpointSteps_eq_walkFrom (r : Nat) : midpointSteps r = walkFrom r r (0, r) := by
  have hf : decisionAt r (0, r) = 1 - (r : Int) := by
    simp only [decisionAt]
    ring
  rw [walkFrom, hf]
  rfl

theorem walkFrom_of_not_lt {r n : Nat} {d : Point} (h : ¬ d.1 < d.2) : walkFrom r n d = [] := by
  cases n with
  | zero => rfl
  | succ n => exact if_neg h

theorem decisionAt_add_one (r : Nat) (x y : Int) : decisionAt r (x + 1, y) = decisionAt r (x, y) + (2 * x + 1 + 2) := by
  simp only [decisionAt]
  ring

theorem decisionAt_sub_one (r : Nat) (x y : Int) : decisionAt r (x, y - 1) = decisionAt r (x, y) + (-2 * y + 2) := by
  simp only [decisionAt]
  ring

/-- R141: one turn keeps `f`, `ddx` and `ddy` at their closed forms. -/
theorem walkFrom_succ {r n : Nat} {d : Point} (h : d.1 < d.2) :
    walkFrom r (n + 1) d = nextOffset r d :: walkFrom r n (nextOffset r d) := by
  obtain ⟨x, y⟩ := d
  have hddx : 2 * (x + 1) + 1 = 2 * x + 1 + 2 := by ring
  have hddy : -2 * (y - 1) = -2 * y + 2 := by ring
  simp only [walkFrom, midpointLoop, if_pos h, nextOffset, ge_iff_le]
  split
  next => rw [decisionAt_add_one, decisionAt_sub_one, hddx, hddy]
  next => rw [decisionAt_add_one, hddx]

/-- R141: after each offset of the walk comes the next, until `x >= y`. -/
theorem getElem?_walkFrom {r n k : Nat} {d e : Point} (hn : (d.2 - d.1).toNat ≤ n)
    (hk : (d :: walkFrom r n d)[k]? = some e) :
    (walkFrom r n d)[k]? = if e.1 < e.2 then some (nextOffset r e) else none := by
  induction k generalizing n d with
  | zero =>
    obtain rfl : d = e := Option.some.inj hk
    split
    next hlt =>
      obtain ⟨m, rfl⟩ : ∃ m, n = m + 1 := ⟨n - 1, by omega⟩
      rw [walkFrom_succ hlt, List.getElem?_cons_zero]
    next hge => rw [walkFrom_of_not_lt hge, List.getElem?_nil]
  | succ k ih =>
    rw [List.getElem?_cons_succ] at hk
    by_cases hlt : d.1 < d.2
    · obtain ⟨m, rfl⟩ : ∃ m, n = m + 1 := ⟨n - 1, by omega⟩
      have hm : ((nextOffset r d).2 - (nextOffset r d).1).toNat ≤ m := by
        simp only [nextOffset]
        split <;> omega
      rw [walkFrom_succ hlt] at hk ⊢
      exact ih hm hk
    · rw [walkFrom_of_not_lt hlt] at hk
      cases hk

theorem getElem?_midpointSteps {r k : Nat} {d : Point} (hd : ((0, (r : Int)) :: midpointSteps r)[k]? = some d) :
    (midpointSteps r)[k]? = if d.1 < d.2 then some (nextOffset r d) else none := by
  rw [midpointSteps_eq_walkFrom] at hd ⊢
  exact getElem?_walkFrom (by simp) hd

/-! ### Circles of radius 0 and 1 -/

/-- R144: radius 0 plots the centre four times. -/
theorem circlePoints_zero (x0 y0 : Int) : circlePoints x0 y0 0 = List.replicate 4 (x0, y0) := by
  simp [circlePoints, midpointSteps, midpointLoop, List.replicate]

theorem count_circlePoints_one (x0 y0 : Int) (q : Point) : (circlePoints x0 y0 1).count q =
    if q = (x0 + 1, y0) ∨ q = (x0 - 1, y0) ∨ q = (x0, y0 + 1) ∨ q = (x0, y0 - 1) then 3 else 0 := by
  have hthrice : (circlePoints x0 y0 1).count q =
      3 * [(x0 + 1, y0), (x0 - 1, y0), (x0, y0 + 1), (x0, y0 - 1)].count q := by
    have hwalk : midpointSteps 1 = [(1, 0)] := rfl
    simp only [circlePoints, hwalk, octantPoints, List.flatMap_cons, List.flatMap_nil, List.count_append, List.count_cons,
      List.count_nil, Nat.cast_one, add_zero, sub_zero]
    omega
  have hnodup : [(x0 + 1, y0), (x0 - 1, y0), (x0, y0 + 1), (x0, y0 - 1)].Nodup := by
    simp only [List.nodup_cons, List.mem_cons, Prod.mk.injEq, List.not_mem_nil, List.nodup_nil, or_false,
      not_false_eq_true, and_true]
    omega
  rw [hthrice, hnodup.count]
  simp

/-- R12: a plot under Invert undoes itself. -/
theorem plotByte_invert_twice (p : Params) (i : Nat) (b : Byte) (q : Point) :
    plotByte p .invert i (plotByte p .invert i b q) q = b := by
  unfold plotByte
  split
  · rw [combine, combine, BitVec.xor_assoc, BitVec.xor_self, BitVec.xor_zero]
  · rfl

/-- R144: CIRCLE.INV of radius 0 changes no byte. -/
theorem exec_circle_invert_zero {x y : Word} {s : State} (hf : s.faulted = false)
    (h : s.params.safeMode = true ∨ inRange s.params (x.toInt, y.toInt) = true) :
    ∃ t, exec (.circle .invert x y 0) s = .next t ∧ ∀ i, t.fbByte i = s.fbByte i := by
  have hps : plotList (.circle .invert x y 0) = some (.invert, List.replicate 4 (x.toInt, y.toInt)) :=
    congrArg (fun ps => some (CombineOp.invert, ps)) (circlePoints_zero ..)
  refine ⟨_, exec_eq_runPlots hps hf, fun i => ?_⟩
  rw [runPlots_ok (h.imp_right fun hin q hq => List.eq_of_mem_replicate hq ▸ hin), State.respond, fbByte_withResp,
    fbByte_plotAll]
  simp only [List.replicate, List.foldl_cons, List.foldl_nil, plotByte_invert_twice]

/-- Settles O37: the recurrence of the walk, and the small radii from its values. -/
theorem circleSmallRadii : Obligations.CircleSmallRadii := by
  refine ⟨by decide, fun r k d hd => getElem?_midpointSteps hd, fun x0 y0 q => ?_, count_circlePoints_one,
    fun x y s hf _ h => exec_circle_invert_zero hf h⟩
  rw [circlePoints_zero, List.count_replicate]
  simp only [beq_iff_eq, eq_comm (a := q)]

/-! ### The spans of FCIRC and FCIRCH -/

/-- The points of a list of spans (R126). -/
def spansPoints (p : Params) (sps : List (Int × Int × Int)) : List Point :=
  sps.flatMap fun sp => spanPoints p sp.1 sp.2.1 sp.2.2

/-- R148: a visible pixel is drawn once for each span that covers it. -/
theorem count_spansPoints {p : Params} {q : Point} (hq : inRange p q = true) (sps : List (Int × Int × Int)) :
    (spansPoints p sps).count q = sps.countP (covers q) := by
  induction sps with
  | nil => rfl
  | cons sp sps ih =>
    rw [spansPoints, List.flatMap_cons, List.count_append, count_spanPoints hq, ← spansPoints, ih, List.countP_cons,
      covers, Nat.add_comm]
    simp

theorem halfSpans_eq_spansPoints (p : Params) (x0 y0 : Int) (r : Nat) (m : BitVec 2) (delta : Int) :
    halfSpans p x0 y0 r m delta = spansPoints p (halfSpanList x0 y0 r m delta) := by
  rw [halfSpans, spansPoints, halfSpanList, List.flatMap_assoc]
  refine List.flatMap_congr fun d _ => ?_
  simp only [halfStep]
  split_ifs <;> simp

theorem discPoints_eq_spansPoints (p : Params) (x0 y0 : Int) (r : Nat) :
    discPoints p x0 y0 r = spansPoints p ((x0, y0 - r, 2 * r + 1) :: halfSpanList x0 y0 r 3 0) := by
  rw [discPoints, halfSpans_eq_spansPoints]
  rfl

/-- Settles O40: each command plots its list of spans. -/
theorem filledCirclesDrawSpans : Obligations.FilledCirclesDrawSpans := by
  intro op m x0 y0 r delta s hf hp
  refine ⟨⟨_, exec_sound _ hf, drawn_congr (fun q hq => ?_) (drawn_plotAll op hp _)⟩,
    ⟨_, exec_sound _ hf, drawn_congr (fun q hq => ?_) (drawn_plotAll op hp _)⟩⟩
  · rw [discPoints_eq_spansPoints, count_spansPoints hq]
    rfl
  · rw [halfSpans_eq_spansPoints, count_spansPoints hq]
    rfl

theorem execAll_cons {i : Instr} {s t : State} (h : exec i s = .next t) (is : List Instr) :
    execAll (i :: is) s = execAll is t := by
  rw [execAll, h]

/-- R60: two commands that plot have the end state of one that plots both lists. -/
theorem execAll_two_plots {op : CombineOp} {i j : Instr} {ps qs : List Point} {s : State} (hi : Plots op s.params i ps)
    (hj : Plots op s.params j qs) (hf : s.faulted = false) :
    execAll [i, j] s = .next ((s.plotAll op (ps ++ qs)).respond 0) := by
  have hj' := hj ((s.plotAll op ps).respond 0) (by simp [State.respond]) (by simpa [State.respond] using hf)
  have hresp : ((s.plotAll op ps).respond 0).plotAll op qs = (s.plotAll op (ps ++ qs)).respond 0 := by
    rw [plotAll_append]
    exact plotAll_withResp ..
  rw [execAll_cons (hi s rfl hf), execAll_cons hj', hresp]
  rfl

/-- R147: the centre column as VLINE draws it, where its top fits an S16 operand. -/
theorem plots_centre_column (op : CombineOp) (p : Params) (x0 y0 : Word) (r : Byte)
    (hlo : -32768 ≤ y0.toInt - (r.toNat : Int)) :
    Plots op p
      (.vline op x0 (BitVec.ofInt 16 (y0.toInt - (r.toNat : Int))) (BitVec.ofNat 16 (2 * r.toNat + 1)))
      (spanPoints p (s16 x0) (s16 y0 - u8 r) (2 * u8 r + 1)) := by
  have hr := r.isLt
  have hy := BitVec.toInt_lt (x := y0)
  have htop : s16 (BitVec.ofInt 16 (y0.toInt - (r.toNat : Int))) = s16 y0 - u8 r :=
    toInt_ofInt_operand hlo (by omega)
  have hheight : (u16 (BitVec.ofNat 16 (2 * r.toNat + 1)) : Int) = 2 * u8 r + 1 := by
    rw [u16, BitVec.toNat_ofNat, Nat.mod_eq_of_lt (by omega)]
    rfl
  rintro s rfl hf
  rw [exec_sound _ hf, execBody, htop, hheight]

/-- Settles O41: the disc's list is the centre column's followed by that of the two halves. -/
theorem fcircIsVlineThenFcirch : Obligations.FcircIsVlineThenFcirch := by
  intro op x0 y0 r s hlo hf
  have hhalves : Plots op s.params (.fcirch op 3 x0 y0 r 0) (halfSpans s.params (s16 x0) (s16 y0) (u8 r) 3 0) := by
    intro u hu hfu
    rw [exec_sound _ hfu, execBody, hu]
    rfl
  exact ⟨_, exec_sound _ hf, execAll_two_plots (plots_centre_column op s.params x0 y0 r hlo) hhalves hf⟩

end Sys2Proof.Machine

/-! PROOFS. 43_bitmap.md: the points of BLIT and SLOWBLIT, the source check, and what the two commands draw. -/

namespace Sys2Proof.Machine

open Sys2Proof.Statements

/-! ### Where source bits land -/

/-- R164: a point is the place of a pixel `(i, j)` with `P i j` of a `w` by `n` image at `(x, y)`, said of the point's own
coordinates. -/
theorem exists_place_iff {P : Nat → Nat → Prop} {x y : Int} {w n : Nat} {q : Point} :
    (∃ i < w, ∃ j < n, P i j ∧ (x + (i : Int), y + (j : Int)) = q) ↔
      x ≤ q.1 ∧ q.1 < x + (w : Int) ∧ y ≤ q.2 ∧ q.2 < y + (n : Int) ∧ P (q.1 - x).toNat (q.2 - y).toNat := by
  constructor
  · rintro ⟨i, hi, j, hj, hP, rfl⟩
    simp only [add_sub_cancel_left, Int.toNat_natCast]
    exact ⟨by omega, by omega, by omega, by omega, hP⟩
  · rintro ⟨hx, hxw, hy, hyn, hP⟩
    exact ⟨_, by omega, _, by omega, hP, Prod.ext (by dsimp only; omega) (by dsimp only; omega)⟩

/-- A list of numbers as integers, as the model's point lists write it: cast in the list monad. -/
theorem coe_list (l : List Nat) : (do let k ← l; pure (k : Int)) = l.map Nat.cast := by
  rw [bind_pure_comp, List.map_eq_map]

/-- Lists without repetition, one for each index, that share no point among them. -/
theorem nodup_flatMap_range {n : Nat} {f : Nat → List Point} (hf : ∀ i, (f i).Nodup)
    (hindex : ∀ i i' q, q ∈ f i → q ∈ f i' → i = i') : ((List.range n).flatMap f).Nodup :=
  List.nodup_flatMap.2 ⟨fun i _ => hf i, List.nodup_range.imp fun hne q hq hq' => hne (hindex _ _ q hq hq')⟩

/-- R161: the points of one source byte: column `i`, rows `8 * b` to `8 * b + 7` of the image. -/
theorem mem_packedBytePoints {x y : Int} {v : Byte} {b i : Nat} {q : Point} :
    q ∈ packedBytePoints x y v b i ↔ ∃ k < 8, v.getLsbD k = true ∧ (x + (i : Int), y + 8 * (b : Int) + (k : Int)) = q := by
  simp only [packedBytePoints, coe_list, List.mem_map, List.mem_filter, List.mem_range]
  constructor
  · rintro ⟨_, ⟨k, ⟨hk, hbit⟩, rfl⟩, rfl⟩
    exact ⟨k, hk, hbit, rfl⟩
  · rintro ⟨k, hk, hbit, rfl⟩
    exact ⟨k, ⟨k, ⟨hk, hbit⟩, rfl⟩, rfl⟩

theorem nodup_packedBytePoints (x y : Int) (v : Byte) (b i : Nat) : (packedBytePoints x y v b i).Nodup := by
  rw [packedBytePoints, coe_list]
  exact ((List.nodup_range.filter _).map Nat.cast_injective).map fun k l h => by simpa using h

/-- R161, R163: the points of BLIT are the places of the set bits of its source bands, padding bits among them. -/
theorem mem_blitPoints {s : State} {x y : Int} {a w h : Nat} {q : Point} :
    q ∈ blitPoints s x y a w h ↔
      ∃ i < w, ∃ j < 8 * packedRows h, packedBit s a w i j = true ∧ (x + (i : Int), y + (j : Int)) = q := by
  simp only [blitPoints, List.mem_flatMap, List.mem_range, mem_packedBytePoints]
  constructor
  · rintro ⟨b, hb, i, hi, k, hk, hbit, rfl⟩
    refine ⟨i, hi, 8 * b + k, by omega, ?_, by push_cast; rw [add_assoc]⟩
    rwa [packedBit, show (8 * b + k) / 8 = b by omega, show (8 * b + k) % 8 = k by omega]
  · rintro ⟨i, hi, j, hj, hbit, rfl⟩
    exact ⟨j / 8, by omega, i, hi, j % 8, by omega, hbit, by rw [add_assoc]; congr 2; omega⟩

theorem nodup_blitPoints (s : State) (x y : Int) (a w h : Nat) : (blitPoints s x y a w h).Nodup := by
  refine nodup_flatMap_range (fun b => nodup_flatMap_range (fun i => nodup_packedBytePoints ..) ?_) ?_
  · intro i i' q hq hq'
    obtain ⟨_, _, _, rfl⟩ := mem_packedBytePoints.1 hq
    obtain ⟨_, _, _, heq⟩ := mem_packedBytePoints.1 hq'
    obtain ⟨hcol, -⟩ := Prod.mk.inj heq
    omega
  · intro b b' q hq hq'
    obtain ⟨_, _, hq⟩ := List.mem_flatMap.1 hq
    obtain ⟨_, _, hq'⟩ := List.mem_flatMap.1 hq'
    obtain ⟨_, _, _, rfl⟩ := mem_packedBytePoints.1 hq
    obtain ⟨_, _, _, heq⟩ := mem_packedBytePoints.1 hq'
    obtain ⟨-, hrow⟩ := Prod.mk.inj heq
    omega

/-- R171: the points of SLOWBLIT are the places of the set bits of its source rows, padding bits not among them. -/
theorem mem_slowblitPoints {s : State} {x y : Int} {a w h : Nat} {q : Point} :
    q ∈ slowblitPoints s x y a w h ↔
      ∃ i < w, ∃ j < h, rowBit s a w i j = true ∧ (x + (i : Int), y + (j : Int)) = q := by
  simp only [slowblitPoints, coe_list, List.mem_flatMap, List.mem_map, List.mem_filter, List.mem_range]
  constructor
  · rintro ⟨j, hj, _, ⟨i, ⟨hi, hbit⟩, rfl⟩, rfl⟩
    exact ⟨i, hi, j, hj, hbit, rfl⟩
  · rintro ⟨i, hi, j, hj, hbit, rfl⟩
    exact ⟨j, hj, i, ⟨i, ⟨hi, hbit⟩, rfl⟩, rfl⟩

theorem nodup_slowblitPoints (s : State) (x y : Int) (a w h : Nat) : (slowblitPoints s x y a w h).Nodup := by
  simp only [slowblitPoints, coe_list]
  refine nodup_flatMap_range (fun j =>
    ((List.nodup_range.filter _).map Nat.cast_injective).map fun k l h => by simpa using h) ?_
  intro j j' q hq hq'
  obtain ⟨_, _, rfl⟩ := List.mem_map.1 hq
  obtain ⟨_, _, heq⟩ := List.mem_map.1 hq'
  obtain ⟨-, hrow⟩ := Prod.mk.inj heq
  omega

/-- R164: how often BLIT plots a point. -/
theorem count_blitPoints (s : State) (x y : Int) (a w h : Nat) (q : Point) :
    (blitPoints s x y a w h).count q = blitCount s x y a w h q := by
  rw [(nodup_blitPoints ..).count, blitCount]
  exact if_congr (mem_blitPoints.trans exists_place_iff) rfl rfl

/-- R171: how often SLOWBLIT plots a point. -/
theorem count_slowblitPoints (s : State) (x y : Int) (a w h : Nat) (q : Point) :
    (slowblitPoints s x y a w h).count q = slowblitCount s x y a w h q := by
  rw [(nodup_slowblitPoints ..).count, slowblitCount]
  exact if_congr (mem_slowblitPoints.trans exists_place_iff) rfl rfl

/-! ### The source check -/

/-- R74: the address as the statements write it. -/
theorem srcAddr_eq_address (alo ahi : Word) : srcAddr alo ahi = address alo ahi := by
  have hlo := alo.isLt
  have hhi := ahi.isLt
  simp only [srcAddr, address, BitVec.toNat_or, BitVec.toNat_shiftLeft, BitVec.toNat_setWidth]
  rw [Nat.mod_eq_of_lt (by omega : ahi.toNat < 2 ^ 32), Nat.mod_eq_of_lt (by omega : alo.toNat < 2 ^ 32),
    Nat.shiftLeft_eq, Nat.mod_eq_of_lt (by omega), ← Nat.shiftLeft_eq, ← Nat.shiftLeft_add_eq_or_of_lt hlo, Nat.shiftLeft_eq]

/-- R55: the check of the source extent. -/
theorem srcOutside_iff (s : State) (a ext : Nat) : srcOutside s.params a ext = true ↔ ¬ extentInside s a ext := by
  rw [srcOutside, extentInside, Bool.and_eq_true, decide_eq_true_eq, decide_eq_true_eq]
  omega

section exec

variable {op : CombineOp} {x y alo ahi w ht : Word} {s : State} (hf : s.faulted = false)
include hf

/-- R161: BLIT whose extent is inside the asset memory. -/
theorem exec_blit_inside (hin : extentInside s (address alo ahi) (w.toNat * ((ht.toNat + 7) / 8))) :
    exec (.blit op x y alo ahi w ht) s =
      .next ((s.plotAll op (blitPoints s x.toInt y.toInt (address alo ahi) w.toNat ht.toNat)).respond 0) := by
  rw [exec_sound _ hf, execBody, srcAddr_eq_address]
  exact congrArg _ (if_neg fun h => (srcOutside_iff ..).1 h hin)

/-- R165: BLIT with any other extent. -/
theorem exec_blit_outside (hout : ¬ extentInside s (address alo ahi) (w.toNat * ((ht.toNat + 7) / 8))) :
    exec (.blit op x y alo ahi w ht) s = .next (s.raiseFault .srcRange) := by
  rw [exec_sound _ hf, execBody, srcAddr_eq_address]
  exact congrArg _ (if_pos ((srcOutside_iff ..).2 hout))

/-- R171: SLOWBLIT whose extent is inside the asset memory runs its plot list. -/
theorem exec_slowblit_inside (hin : extentInside s (address alo ahi) ((w.toNat + 7) / 8 * ht.toNat)) :
    exec (.slowblit op x y alo ahi w ht) s =
      .next (s.runPlots op (slowblitPoints s x.toInt y.toInt (address alo ahi) w.toNat ht.toNat)) := by
  rw [exec_sound _ hf, execBody, srcAddr_eq_address]
  exact congrArg _ (if_neg fun h => (srcOutside_iff ..).1 h hin)

/-- R171, R231: SLOWBLIT with any other extent. -/
theorem exec_slowblit_outside (hout : ¬ extentInside s (address alo ahi) ((w.toNat + 7) / 8 * ht.toNat)) :
    exec (.slowblit op x y alo ahi w ht) s = .next (s.raiseFault .srcRange) := by
  rw [exec_sound _ hf, execBody, srcAddr_eq_address]
  exact congrArg _ (if_pos ((srcOutside_iff ..).2 hout))

/-- R171: SLOWBLIT that does not fault. -/
theorem exec_slowblit_ok (hin : extentInside s (address alo ahi) ((w.toNat + 7) / 8 * ht.toNat))
    (hok : s.params.safeMode = true ∨
      ∀ i < w.toNat, ∀ j < ht.toNat, rowBit s (address alo ahi) w.toNat i j = true →
        inRange s.params (x.toInt + (i : Int), y.toInt + (j : Int)) = true) :
    exec (.slowblit op x y alo ahi w ht) s =
      .next ((s.plotAll op (slowblitPoints s x.toInt y.toInt (address alo ahi) w.toNat ht.toNat)).respond 0) := by
  rw [exec_slowblit_inside hf hin, runPlots_ok (hok.imp_right fun h q hq => ?_)]
  obtain ⟨i, hi, j, hj, hbit, rfl⟩ := mem_slowblitPoints.1 hq
  exact h i hi j hj hbit

end exec

/-- Settles O44: the source check stands before the plots, and the check of R102 before the plots of SLOWBLIT. -/
theorem blitsFault : Obligations.BlitsFault := by
  refine fun op x y alo ahi w ht s hf => ⟨exec_blit_outside hf, exec_slowblit_outside hf,
    fun hin hs ⟨i, hi, j, hj, hbit, hout⟩ => ?_⟩
  rw [exec_slowblit_inside hf hin, runPlots_fault hs (mem_slowblitPoints.2 ⟨i, hi, j, hj, hbit, rfl⟩) hout,
    raiseFault_eq_faultedWith]
  rfl

/-- Settles O42: BLIT plots its list, which holds the place of each set source bit once. -/
theorem blitDrawsSourceBits : Obligations.BlitDrawsSourceBits := by
  intro op x y alo ahi w ht s hf hp hin
  exact ⟨_, exec_blit_inside hf hin, drawn_congr (fun q _ => count_blitPoints ..) (drawn_plotAll op hp _)⟩

/-- Settles O43: SLOWBLIT plots its list, which holds the place of each set source bit once. -/
theorem slowblitDrawsSourceBits : Obligations.SlowblitDrawsSourceBits := by
  intro op x y alo ahi w ht s hf hp hin hok
  exact ⟨_, exec_slowblit_ok hf hin hok, drawn_congr (fun q _ => count_slowblitPoints ..) (drawn_plotAll op hp _)⟩

/-- R172: the same pixels in both formats give the same points, when the packed image has no padding rows. -/
theorem blitPoints_perm_slowblitPoints {s : State} {aB aS w h : Nat} (x y : Int) (h8 : h % 8 = 0)
    (hsame : ∀ i < w, ∀ j < h, packedBit s aB w i j = rowBit s aS w i j) :
    (blitPoints s x y aB w h).Perm (slowblitPoints s x y aS w h) := by
  have hrows : 8 * packedRows h = h := by
    unfold packedRows
    omega
  refine (List.perm_ext_iff_of_nodup (nodup_blitPoints ..) (nodup_slowblitPoints ..)).2 fun q => ?_
  rw [mem_blitPoints, mem_slowblitPoints, hrows]
  refine exists_congr fun i => and_congr_right fun hi => exists_congr fun j => and_congr_right fun hj => ?_
  rw [hsame i hi j hj]

/-- Settles O46: the two commands plot permutations of one list. -/
theorem blitEqualsSlowblit : Obligations.BlitEqualsSlowblit := by
  intro op x y w ht aloB ahiB aloS ahiS s hf _ h8 hinB hinS hsame hok
  exact ⟨_, _, exec_blit_inside hf hinB, exec_slowblit_ok hf hinS hok,
    fbByte_plotAll_perm (blitPoints_perm_slowblitPoints _ _ h8 hsame) op s,
    respond_zero_frame (plotAll_frame ..), respond_zero_frame (plotAll_frame ..)⟩

end Sys2Proof.Machine

/-! PROOFS. 43_bitmap.md R162: the byte form of BLIT. -/

namespace Sys2Proof.Machine

open Sys2Proof.Statements

@[simp] theorem overdraw_zero (op : CombineOp) (b : Bool) : overdraw op 0 b = b := by
  cases op <;> simp [overdraw]

/-! ### A framebuffer is its pixels -/

/-- R20: bit `k` of byte `i` of the buffer is a pixel of the screen. -/
theorem exists_point_of_byte_bit {p : Params} (hp : p.Legal) {i k : Nat} (hi : i < p.fbBytes) (hk : k < 8) :
    ∃ q, inRange p q = true ∧ byteIndex p q = i ∧ bitPos q = k := by
  obtain ⟨hw, -, -, -, h8, -⟩ := hp
  have hband : i / p.width < p.height / 8 := by
    rw [Nat.div_lt_iff_lt_mul hw, mul_comm, ← Nat.mul_div_assoc _ (Nat.dvd_of_mod_eq_zero h8)]
    exact hi
  have hcol : i % p.width < p.width := Nat.mod_lt _ hw
  refine ⟨((i % p.width : Nat), (8 * (i / p.width) + k : Nat)), (inRange_iff _ _).2 (by dsimp only; omega), ?_, ?_⟩
  · simp only [byteIndex, Int.toNat_natCast, show (8 * (i / p.width) + k) / 8 = i / p.width by omega]
    exact Nat.div_add_mod' ..
  · simp only [bitPos, Int.toNat_natCast]
    omega

/-- R20: a byte of the buffer is determined by its pixels. -/
theorem fbByte_eq_of_pixel_eq {t u : State} (hp : t.params.Legal) (hu : u.params = t.params)
    (h : ∀ q, inRange t.params q = true → t.pixel q = u.pixel q) {i : Nat} (hi : i < t.params.fbBytes) :
    t.fbByte i = u.fbByte i := by
  refine BitVec.eq_of_getLsbD_eq fun k hk => ?_
  obtain ⟨q, hq, rfl, rfl⟩ := exists_point_of_byte_bit hp hi hk
  have := h q hq
  rwa [State.pixel, State.pixel, hu] at this

/-- R58: what combining the byte of an in-range point does to a pixel at the same bit position. -/
theorem pixel_combineAt {op : CombineOp} {s : State} (hp : s.params.Legal) {q r : Point} (m : Byte)
    (hq : inRange s.params q = true) (hr : inRange s.params r = true) (hbit : bitPos q = bitPos r) :
    (s.combineAt op (byteIndex s.params q) m).pixel r =
      overdraw op (if r = q ∧ m.getLsbD (bitPos r) = true then 1 else 0) (s.pixel r) := by
  have h8 : bitPos r < 8 := Nat.mod_lt _ (by decide)
  have hparams : (s.combineAt op (byteIndex s.params q) m).params = s.params := by rw [combineAt_frame, withFb_params]
  rw [State.pixel, hparams, fbByte_combineAt]
  by_cases hrq : r = q
  · subst hrq
    rw [if_pos ⟨rfl, byteIndex_lt hp hr⟩, getLsbD_combine _ _ _ _ h8, State.pixel]
    cases m.getLsbD (bitPos r) <;> cases op <;> simp [overdraw]
  · have hne : byteIndex s.params r ≠ byteIndex s.params q := fun h => hrq (point_eq_of_byte_bit hr hq h hbit.symm)
    rw [if_neg fun h => hne h.1, if_neg fun h => hrq h.1, State.pixel, overdraw_zero]

/-! ### One source byte of the byte form (R162) -/

/-- One destination byte of R162: column `c` of band `b` combined with `m`, when the screen has that band. -/
def State.combineBand (op : CombineOp) (s : State) (c b : Int) (m : Byte) : State :=
  if 0 ≤ b ∧ b < (s.params.bands : Int) then s.combineAt op (b.toNat * s.params.width + c.toNat) m else s

theorem combineBand_frame (op : CombineOp) (s : State) (c b : Int) (m : Byte) :
    s.combineBand op c b m = s.withFb (s.combineBand op c b m).fb := by
  unfold State.combineBand
  split
  · exact combineAt_frame ..
  · rfl

@[simp] theorem combineBand_params (op : CombineOp) (s : State) (c b : Int) (m : Byte) :
    (s.combineBand op c b m).params = s.params := by
  rw [combineBand_frame, withFb_params]

/-- R162: the pixels of a destination byte are combined with the mask's bits. -/
theorem pixel_combineBand {op : CombineOp} {s : State} (hp : s.params.Legal) {c : Int} (hc : 0 ≤ c ∧ c < s.params.width)
    (b : Int) (m : Byte) {r : Point} (hr : inRange s.params r = true) :
    (s.combineBand op c b m).pixel r =
      overdraw op (if (r.1 = c ∧ r.2 / 8 = b) ∧ m.getLsbD (bitPos r) = true then 1 else 0) (s.pixel r) := by
  obtain ⟨hx, hxw, hy, hyh⟩ := (inRange_iff _ _).1 hr
  have ⟨_, _, _, _, h8, _⟩ := hp
  unfold State.combineBand Params.bands
  split
  next hb =>
    have hq : inRange s.params (c, 8 * b + r.2 % 8) = true := (inRange_iff _ _).2 (by dsimp only; omega)
    have hindex : b.toNat * s.params.width + c.toNat = byteIndex s.params (c, 8 * b + r.2 % 8) := by
      simp only [byteIndex, show (8 * b + r.2 % 8).toNat / 8 = b.toNat by omega]
    rw [hindex, pixel_combineAt hp m hq hr (by simp only [bitPos]; omega)]
    have hrq : r = (c, 8 * b + r.2 % 8) ↔ r.1 = c ∧ r.2 / 8 = b := by
      rw [Prod.ext_iff]
      dsimp only
      omega
    simp only [hrq]
  next hb =>
    rw [if_neg (by omega), overdraw_zero]

/-- R162: a source byte is split over the two bands its rows lie in. -/
theorem blitByte_eq (op : CombineOp) (s : State) (x y : Int) (a w b i : Nat) :
    s.blitByte op x y a w b i =
      if 0 ≤ x + (i : Int) ∧ x + (i : Int) < s.params.width then
        let t := s.combineBand op (x + i) (y / 8 + b) (s.srcByte (a + b * w + i) <<< (y % 8).toNat)
        if (y % 8).toNat ≠ 0 then
          t.combineBand op (x + i) (y / 8 + b + 1) (s.srcByte (a + b * w + i) >>> (8 - (y % 8).toNat))
        else t
      else s := by
  have hdiv : (y - y.emod 8) / 8 = y / 8 := by
    change (y - y % 8) / 8 = y / 8
    omega
  simp only [State.blitByte, State.combineBand, hdiv, ite_and]
  rfl

/-- R13: the plots of a pixel can be made in two goes. -/
theorem overdraw_add (op : CombineOp) (m n : Nat) (b : Bool) :
    overdraw op (m + n) b = overdraw op n (overdraw op m b) := by
  induction m generalizing b with
  | zero => rw [Nat.zero_add, overdraw_zero]
  | succ m ih => rw [Nat.add_right_comm, overdraw_succ, ih, overdraw_succ op m]

/-- R161: the points of a source byte, by the row's distance from the byte's top row. -/
theorem mem_packedBytePoints_iff {x y : Int} {v : Byte} {b i : Nat} {q : Point} :
    q ∈ packedBytePoints x y v b i ↔
      q.1 = x + (i : Int) ∧ y + 8 * (b : Int) ≤ q.2 ∧ v.getLsbD (q.2 - (y + 8 * (b : Int))).toNat = true := by
  rw [mem_packedBytePoints]
  constructor
  · rintro ⟨k, -, hbit, rfl⟩
    refine ⟨rfl, by dsimp only; omega, ?_⟩
    rwa [add_sub_cancel_left, Int.toNat_natCast]
  · rintro ⟨hcol, hrow, hbit⟩
    exact ⟨_, BitVec.lt_of_getLsbD hbit, hbit, Prod.ext hcol.symm (by dsimp only; omega)⟩

/-- R162: the two bands of a source byte hold its rows, shifted by `Y mod 8`. -/
theorem count_packedBytePoints (x y : Int) (v : Byte) (b i : Nat) {r : Point} (hr : 0 ≤ r.2) :
    (packedBytePoints x y v b i).count r =
      (if (r.1 = x + (i : Int) ∧ r.2 / 8 = y / 8 + b) ∧ (v <<< (y % 8).toNat).getLsbD (bitPos r) = true then 1 else 0) +
        (if (r.1 = x + (i : Int) ∧ r.2 / 8 = y / 8 + b + 1) ∧ (v >>> (8 - (y % 8).toNat)).getLsbD (bitPos r) = true then 1
          else 0) := by
  have h8 : bitPos r < 8 := Nat.mod_lt _ (by decide)
  have hpos : (bitPos r : Int) = r.2 % 8 := by
    unfold bitPos
    omega
  rw [(nodup_packedBytePoints ..).count, BitVec.getLsbD_shiftLeft, BitVec.getLsbD_ushiftRight]
  simp only [mem_packedBytePoints_iff, h8]
  by_cases hhere : r.2 / 8 = y / 8 + b
  · have hrow : y + 8 * (b : Int) ≤ r.2 ↔ ¬ bitPos r < (y % 8).toNat := by omega
    have hbit : (r.2 - (y + 8 * (b : Int))).toNat = bitPos r - (y % 8).toNat := by omega
    simp [hhere, hrow, hbit]
  · by_cases hnext : r.2 / 8 = y / 8 + b + 1
    · have hrow : y + 8 * (b : Int) ≤ r.2 := by omega
      have hbit : (r.2 - (y + 8 * (b : Int))).toNat = 8 - (y % 8).toNat + bitPos r := by omega
      simp [hnext, hrow, hbit]
    · have hout : ¬ (y + 8 * (b : Int) ≤ r.2 ∧ (r.2 - (y + 8 * (b : Int))).toNat < 8) := by omega
      rw [if_neg fun h => hout ⟨h.2.1, BitVec.lt_of_getLsbD h.2.2⟩, if_neg fun h => hhere h.1.2,
        if_neg fun h => hnext h.1.2]

/-- R162: a source byte of the byte form does to a pixel what the plots of R161 do. -/
theorem pixel_blitByte {op : CombineOp} {s : State} (hp : s.params.Legal) (x y : Int) (a w b i : Nat) {r : Point}
    (hr : inRange s.params r = true) :
    (s.blitByte op x y a w b i).pixel r =
      (s.plotAll op (packedBytePoints x y (s.srcByte (a + b * w + i)) b i)).pixel r := by
  obtain ⟨hx, hxw, hy, -⟩ := (inRange_iff _ _).1 hr
  rw [pixel_plotAll hp _ hr, blitByte_eq]
  split
  next hc =>
    rw [count_packedBytePoints _ _ _ _ _ hy, overdraw_add, ← pixel_combineBand hp hc _ _ hr]
    dsimp only
    split
    next => exact pixel_combineBand (by simpa) (by simpa) _ _ (by simpa)
    next hzero =>
      have hempty : s.srcByte (a + b * w + i) >>> (8 - (y % 8).toNat) = 0 := by
        rw [not_not.1 hzero]
        exact BitVec.ushiftRight_eq_zero (by decide)
      simp [hempty]
  next hc =>
    rw [List.count_eq_zero.2 fun hmem => ?_, overdraw_zero]
    have := (mem_packedBytePoints_iff.1 hmem).1
    omega

/-! ### Operations that change the buffer alone -/

/-- `u` is `s` with bytes of the buffer changed, and nothing else. -/
structure State.ChangesBuffer (s u : State) : Prop where
  frame : u = s.withFb u.fb
  outside : ∀ k, s.params.fbBytes ≤ k → u.fbByte k = s.fbByte k

namespace State.ChangesBuffer

theorem refl (s : State) : s.ChangesBuffer s := ⟨rfl, fun _ _ => rfl⟩

theorem params {s u : State} (h : s.ChangesBuffer u) : u.params = s.params := by
  rw [h.frame, withFb_params]

theorem trans {s t u : State} (h : s.ChangesBuffer t) (k : t.ChangesBuffer u) : s.ChangesBuffer u where
  frame := by
    rw [k.frame, h.frame]
    rfl
  outside i hi := (k.outside i (h.params ▸ hi)).trans (h.outside i hi)

end State.ChangesBuffer

theorem changesBuffer_combineBand (op : CombineOp) (s : State) (c b : Int) (m : Byte) :
    s.ChangesBuffer (s.combineBand op c b m) where
  frame := combineBand_frame op s c b m
  outside k hk := by
    unfold State.combineBand
    split
    · rw [fbByte_combineAt, if_neg (by omega)]
    · rfl

theorem changesBuffer_blitByte (op : CombineOp) (s : State) (x y : Int) (a w b i : Nat) :
    s.ChangesBuffer (s.blitByte op x y a w b i) := by
  have hfirst := changesBuffer_combineBand op s (x + i) (y / 8 + b) (s.srcByte (a + b * w + i) <<< (y % 8).toNat)
  rw [blitByte_eq]
  dsimp only
  split_ifs
  · exact hfirst.trans (changesBuffer_combineBand ..)
  · exact hfirst
  · exact .refl s

/-- R162: byte for byte, a source byte of the byte form does what the plots of R161 do. -/
theorem fbByte_blitByte {op : CombineOp} {s : State} (hp : s.params.Legal) (x y : Int) (a w b i k : Nat) :
    (s.blitByte op x y a w b i).fbByte k =
      (s.plotAll op (packedBytePoints x y (s.srcByte (a + b * w + i)) b i)).fbByte k := by
  have hchange := changesBuffer_blitByte op s x y a w b i
  by_cases hk : k < s.params.fbBytes
  · rw [← hchange.params] at hk
    exact fbByte_eq_of_pixel_eq (by rwa [hchange.params]) (by rw [plotAll_params, hchange.params])
      (fun q hq => pixel_blitByte hp x y a w b i (by rwa [hchange.params] at hq)) hk
  · rw [hchange.outside k (by omega), fbByte_plotAll_outside op (by omega)]

/-! ### The loops of the byte form -/

/-- From `s` with any framebuffer, `f` has the end state of the plots `ps` byte for byte. -/
def DoesPlots (op : CombineOp) (s : State) (f : State → State) (ps : List Point) : Prop :=
  ∀ m, f (s.withFb m) = s.withFb (f (s.withFb m)).fb ∧
    ∀ k, (f (s.withFb m)).fbByte k = ((s.withFb m).plotAll op ps).fbByte k

theorem doesPlots_foldl {ι : Type} {op : CombineOp} {s : State} {f : State → ι → State} {g : ι → List Point}
    (h : ∀ i, DoesPlots op s (f · i) (g i)) (l : List ι) : DoesPlots op s (l.foldl f) (l.flatMap g) := by
  intro m
  induction l generalizing m with
  | nil => exact ⟨rfl, fun _ => rfl⟩
  | cons i l ih =>
    obtain ⟨hframe, hbyte⟩ := h i m
    obtain ⟨hframe', hbyte'⟩ := ih (f (s.withFb m) i).fb
    dsimp only at hframe hbyte hframe' hbyte' ⊢
    rw [← hframe] at hframe' hbyte'
    refine ⟨hframe', fun k => ?_⟩
    have hparams : (f (s.withFb m) i).params = s.params := by rw [hframe, withFb_params]
    rw [List.foldl_cons, hbyte', List.flatMap_cons, plotAll_append, fbByte_plotAll, fbByte_plotAll _ (State.plotAll ..),
      hbyte, hparams, plotAll_params, withFb_params]

/-- Settles O45: each source byte of the byte form does the plots of its set bits, and both forms take the bytes in one
order. -/
theorem blitByteFormAgrees : Obligations.BlitByteFormAgrees := by
  intro op x y a w h s hp i
  have hbyte (b i : Nat) : DoesPlots op s (State.blitByte op x y a w b · i)
      (packedBytePoints x y (s.srcByte (a + b * w + i)) b i) :=
    fun m => ⟨(changesBuffer_blitByte op (s.withFb m) x y a w b i).frame,
      fun k => fbByte_blitByte (s := s.withFb m) hp x y a w b i k⟩
  exact (doesPlots_foldl (fun b => doesPlots_foldl (hbyte b) (List.range w)) (List.range (packedRows h)) s.fb).2 i

end Sys2Proof.Machine

/-! PROOFS. 44_scheduler.md R180: a command other than NEXTFRAME under another value of the clock input. -/

namespace Sys2Proof.Machine

open Sys2Proof.Statements

section withClock

variable (op : CombineOp) (s : State) (c : DWord)

theorem combineAt_withClock (i : Nat) (m : Byte) :
    (s.withClock c).combineAt op i m = (s.combineAt op i m).withClock c := by
  unfold State.combineAt
  rw [apply_ite (State.withClock · c)]
  rfl

theorem plot_withClock (q : Point) : (s.withClock c).plot op q = (s.plot op q).withClock c := by
  unfold State.plot
  rw [apply_ite (State.withClock · c), ← combineAt_withClock]
  rfl

theorem plotAll_withClock (ps : List Point) : (s.withClock c).plotAll op ps = (s.plotAll op ps).withClock c :=
  List.foldl_hom (State.withClock · c) fun u q => plot_withClock op u c q

theorem fillAll_withClock : (s.withClock c).fillAll op = (s.fillAll op).withClock c :=
  List.foldl_hom (State.withClock · c) fun u i => combineAt_withClock op u c i 0xFF

/-- The end of the commands that plot their points without the check of R102. -/
theorem plotAll_respond_withClock (ps : List Point) :
    ((s.withClock c).plotAll op ps).respond 0 = ((s.plotAll op ps).respond 0).withClock c := by
  rw [plotAll_withClock]
  rfl

theorem runPlots_withClock (ps : List Point) : (s.withClock c).runPlots op ps = (s.runPlots op ps).withClock c := by
  unfold State.runPlots
  rw [apply_ite (State.withClock · c), ← plotAll_respond_withClock]
  rfl

end withClock

/-- R180: the body of every command but NEXTFRAME neither reads nor writes the clock input. -/
theorem execBody_withClock {i : Instr} (hi : i ≠ .nextframe) (s : State) (c : DWord) :
    execBody i (s.withClock c) = (execBody i s).withClock c := by
  cases i with
  | setpx | line | circle | circh => exact runPlots_withClock ..
  | hline | vline | fcirc | fcirch => exact plotAll_respond_withClock ..
  | fill op =>
    simp only [execBody, fillAll_withClock]
    rfl
  | blit =>
    simp only [execBody, apply_ite (State.withClock · c), ← plotAll_respond_withClock]
    rfl
  | slowblit =>
    simp only [execBody, apply_ite (State.withClock · c), ← runPlots_withClock]
    rfl
  | getpx | setfps | everyx =>
    simp only [execBody, apply_ite (State.withClock · c)]
    rfl
  | cpuload | present => rfl
  | nextframe => exact absurd rfl hi

/-- Settles O21: no end of a command writes the clock, and each body but NEXTFRAME's commutes with a change of it. -/
theorem onlyNextframeSamplesClock : Obligations.OnlyNextframeSamplesClock := by
  intro i s t h
  obtain ⟨-, -, hclock, -⟩ := (commandEnd_of_exec h).inputs_unchanged
  exact ⟨hclock, fun hi c => exec_commutes (f := (State.withClock · c)) rfl rfl (execBody_withClock hi s c) h⟩

end Sys2Proof.Machine

/-! PROOFS. 44_scheduler.md: the rate registers, CPULOAD and EVERYX, the ends of NEXTFRAME, and the distance between windows. -/

namespace Sys2Proof.Machine

open Sys2Proof.Statements

/-! ### The period, CPULOAD and EVERYX -/

/-- R182: the period of a legal rate. -/
theorem period_bounds {r : Byte} (hr : 1 ≤ r.toNat) : 3 ≤ 1000 / r.toNat ∧ 1000 / r.toNat ≤ 1000 :=
  ⟨(Nat.le_div_iff_mul_le hr).2 (by have := r.isLt; omega), Nat.div_le_self ..⟩

/-- R27: the period in a state that satisfies the invariant. -/
theorem eachFrameMs_bounds {s : State} (h : s.Inv) : 3 ≤ s.eachFrameMs.toNat ∧ s.eachFrameMs.toNat ≤ 1000 := by
  rw [h.each_eq]
  exact period_bounds h.rate_pos

/-- Settles O47: a legal rate's period lies between 3 and 1000, so EACH_FRAME_MS holds it exactly. -/
theorem setfpsSetsRate : Obligations.SetfpsSetsRate := by
  intro rate s hf
  rw [exec_sound _ hf]
  refine ⟨fun hr => ⟨(s.withRate rate).respond 0, by simp only [execBody, if_neg hr], rfl, ?_⟩, fun hr => ?_⟩
  · have hb := period_bounds (Nat.pos_of_ne_zero fun h0 => hr (BitVec.eq_of_toNat_eq h0))
    have hexact : ((s.withRate rate).respond 0).eachFrameMs.toNat = 1000 / rate.toNat :=
      Nat.mod_eq_of_lt (by omega)
    exact ⟨hexact, hexact ▸ hb⟩
  · simp only [execBody, if_pos hr]
    rfl

/-- Settles O54: the duration is at most 65535 and the period at least 3, so the quotient fits the result register. -/
theorem cpuloadReportsBudget : Obligations.CpuloadReportsBudget := by
  intro s hf h
  have hle : s.lastFrameDuration.toNat * 100 / s.eachFrameMs.toNat ≤ 2184500 := by
    calc s.lastFrameDuration.toNat * 100 / s.eachFrameMs.toNat
        ≤ s.lastFrameDuration.toNat * 100 / 3 := Nat.div_le_div_left (eachFrameMs_bounds h).1 (by decide)
      _ ≤ 2184500 := by have := s.lastFrameDuration.isLt; omega
  have hexact : (BitVec.ofNat 32 (s.lastFrameDuration.toNat * 100 / s.eachFrameMs.toNat)).toNat =
      s.lastFrameDuration.toNat * 100 / s.eachFrameMs.toNat := Nat.mod_eq_of_lt (by omega)
  exact ⟨_, exec_sound _ hf, rfl, hexact, hexact.trans_le hle⟩

/-- Settles O55: a remainder of 0 is divisibility. -/
theorem everyxTestsCount : Obligations.EveryxTestsCount := by
  intro n s hf
  rw [exec_sound _ hf]
  refine ⟨fun hn => ?_, fun hn => ?_⟩
  · simp only [execBody, if_neg hn, Nat.dvd_iff_mod_eq_zero]
    rfl
  · simp only [execBody, if_pos hn]
    rfl

/-! ### The next start of R186 -/

/-- R186: the next start of a window that is due lies at most a period past the sample. -/
theorem nextOf_le {s : State} (hdue : s.nextFrameStart.toNat ≤ s.clock.toNat) :
    nextOf s ≤ s.clock.toNat + s.eachFrameMs.toNat := by
  simp only [nextOf]
  split <;> omega

/-- R188: the next start lies a period or more past the scheduled one. -/
theorem le_nextOf (s : State) : s.nextFrameStart.toNat + s.eachFrameMs.toNat ≤ nextOf s := by
  simp only [nextOf]
  split <;> omega

/-- R188: the next start lies past the sample. -/
theorem clock_lt_nextOf {s : State} (heach : 0 < s.eachFrameMs.toNat) : s.clock.toNat < nextOf s := by
  simp only [nextOf]
  split <;> omega

/-! ### The ends of NEXTFRAME -/

/-- The state of NEXTFRAME after its sample and the accounting of the frame before, in the words of the statements. -/
theorem finalizePending_eq_closeFrame (s : State) :
    (s.withClockLast s.clock).finalizePending s.clock.toNat = s.closeFrame (finalDuration s) (finalCount s) := by
  cases hp : s.postRenderPending <;>
    simp [State.finalizePending, State.finalize, State.closeFrame, State.withClockLast, finalDuration, finalCount, hp]

/-- R184: the idle request changes the output events alone. -/
theorem requestIdle_eq (s : State) (now : Nat) :
    s.requestIdle now = { s with
      out := if s.nextFrameStart.toNat - now > s.params.idleThresholdMs then s.out ++ [.idleReq] else s.out } := by
  unfold State.requestIdle
  split <;> rfl

/-- `s` after a NEXTFRAME that is told to wait (R185). -/
def State.waited (s : State) : State :=
  ((s.closeFrame (finalDuration s) (finalCount s)).requestIdle s.clock.toNat).respond 0

/-- `s` after a NEXTFRAME that opens a window (R186). -/
def State.opened (s : State) : State :=
  ((s.closeFrame (finalDuration s) (finalCount s)).openWindow s.clock (nextOf s)).respond 1

theorem waited_nextFrameStart (s : State) : s.waited.nextFrameStart = s.nextFrameStart := by
  rw [State.waited, requestIdle_eq]
  rfl

theorem toNat_opened_nextFrameStart {s : State} (hnext : nextOf s ≤ 2 ^ 32 - 1) :
    s.opened.nextFrameStart.toNat = nextOf s :=
  Nat.mod_eq_of_lt (by omega)

section nextframe

variable {s : State}

/-- R181. -/
theorem nextframe_of_regression (hclock : s.clock.toNat < s.clockLast.toNat) :
    s.nextframe = s.raiseFault .clockRegression := if_pos hclock

/-- R185. -/
theorem nextframe_of_early (hclock : s.clockLast.toNat ≤ s.clock.toNat)
    (hearly : s.clock.toNat < s.nextFrameStart.toNat) : s.nextframe = s.waited := by
  simp only [State.nextframe, if_neg (Nat.not_lt.2 hclock), if_pos hearly, finalizePending_eq_closeFrame]
  rfl

/-- R189. -/
theorem nextframe_of_overflow (hclock : s.clockLast.toNat ≤ s.clock.toNat)
    (hdue : s.nextFrameStart.toNat ≤ s.clock.toNat) (hnext : 2 ^ 32 - 1 < nextOf s) :
    s.nextframe = s.raiseFault .timeOverflow := by
  have hnext' : s.nextStart s.clock.toNat > 2 ^ 32 - 1 := hnext
  simp only [State.nextframe, if_neg (Nat.not_lt.2 hclock), if_neg (Nat.not_lt.2 hdue), if_pos hnext']

/-- R186, R187. -/
theorem nextframe_of_due (hclock : s.clockLast.toNat ≤ s.clock.toNat)
    (hdue : s.nextFrameStart.toNat ≤ s.clock.toNat) (hnext : nextOf s ≤ 2 ^ 32 - 1) : s.nextframe = s.opened := by
  have hnext' : ¬ s.nextStart s.clock.toNat > 2 ^ 32 - 1 := Nat.not_lt.2 hnext
  simp only [State.nextframe, if_neg (Nat.not_lt.2 hclock), if_neg (Nat.not_lt.2 hdue), if_neg hnext',
    finalizePending_eq_closeFrame]
  rfl

end nextframe

/-- Settles O48: the waiting branch, and IdleReq by the threshold. -/
theorem nextframeWaits : Obligations.NextframeWaits := by
  intro s hf hclock hearly
  rw [exec_sound _ hf, execBody, nextframe_of_early hclock hearly, State.waited, requestIdle_eq]
  rfl

/-- Settles O49: the opening branch. -/
theorem nextframeOpens : Obligations.NextframeOpens := by
  intro s hf hclock hdue hnext
  refine ⟨s.opened, ?_, toNat_opened_nextFrameStart hnext, rfl⟩
  rw [exec_sound _ hf, execBody, nextframe_of_due hclock hdue hnext]

/-- Settles O50: both checks stand before the writes, and a period is at most 1000 ms. -/
theorem nextframeFaults : Obligations.NextframeFaults := by
  intro s hf
  rw [exec_sound _ hf, execBody]
  refine ⟨fun hclock => ?_, fun hclock hdue hnext => ⟨?_, fun h => ?_⟩⟩
  · rw [nextframe_of_regression hclock, raiseFault_eq_faultedWith]
    rfl
  · rw [nextframe_of_overflow hclock hdue hnext, raiseFault_eq_faultedWith]
    rfl
  · have hle := nextOf_le hdue
    have hperiod := (eachFrameMs_bounds h).2
    omega

/-- R187: the response of a block in the fault state is not that of an opening. -/
theorem not_opening_of_faulted (s : State) (v : DWord) :
    ¬ ((s.withResp .faulted v).respStatus = 0 ∧ (s.withResp .faulted v).respResult = 1) :=
  fun ⟨hstatus, _⟩ => absurd hstatus (by decide : Status.faulted.code ≠ 0)

/-- R186: a NEXTFRAME that answers OK and 1 was due and opened the window; every other one leaves the schedule. -/
theorem exec_nextframe_cases {s t : State} (h : exec .nextframe s = .next t) :
    (s.faulted = false ∧ s.nextFrameStart.toNat ≤ s.clock.toNat ∧ nextOf s ≤ 2 ^ 32 - 1 ∧ t = s.opened) ∨
      (¬ (t.respStatus = 0 ∧ t.respResult = 1) ∧ t.nextFrameStart = s.nextFrameStart) := by
  cases hf : s.faulted with
  | true =>
    obtain rfl : s.respondFaulted = t := by simpa [exec_faulted _ hf] using h
    exact .inr ⟨not_opening_of_faulted _ _, rfl⟩
  | false =>
    obtain rfl : s.nextframe = t := by simpa [exec_sound _ hf, execBody] using h
    rcases Nat.lt_or_ge s.clock.toNat s.clockLast.toNat with hclock | hclock
    · rw [nextframe_of_regression hclock]
      exact .inr ⟨not_opening_of_faulted _ _, rfl⟩
    rcases Nat.lt_or_ge s.clock.toNat s.nextFrameStart.toNat with hearly | hdue
    · rw [nextframe_of_early hclock hearly]
      exact .inr ⟨fun ⟨_, hresult⟩ => absurd hresult (by decide : (0 : DWord) ≠ 1), waited_nextFrameStart s⟩
    rcases Nat.lt_or_ge (2 ^ 32 - 1) (nextOf s) with hover | hnext
    · rw [nextframe_of_overflow hclock hdue hover]
      exact .inr ⟨not_opening_of_faulted _ _, rfl⟩
    · exact .inl ⟨rfl, hdue, hnext, nextframe_of_due hclock hdue hnext⟩

/-- Settles O52: the next start lies past the sample, and a query before it takes the waiting branch. -/
theorem noCatchUp : Obligations.NoCatchUp := by
  intro s t h hs hstatus hresult
  rcases exec_nextframe_cases hs with ⟨hf, -, hnext, rfl⟩ | ⟨hnot, -⟩
  · refine ⟨?_, fun c hle hlt => ⟨(s.opened.withClock c).waited, ?_, rfl, rfl⟩⟩
    · rw [toNat_opened_nextFrameStart hnext]
      exact clock_lt_nextOf (eachFrameMs_pos h)
    · have hsound : (s.opened.withClock c).faulted = false := hf
      rw [exec_sound _ hsound, execBody, nextframe_of_early hle hlt]
  · exact absurd ⟨hstatus, hresult⟩ hnot

/-! ### The openings of a sequence of queries -/

/-- R186: what the first of the queries does to the openings, the schedule and the period. -/
theorem openings_cons_cases (c : DWord) (cs : List DWord) (s : State) :
    ∃ t : State, t.eachFrameMs = s.eachFrameMs ∧
      ((openings (c :: cs) s = c.toNat :: openings cs t ∧ s.nextFrameStart.toNat ≤ c.toNat ∧
          t.nextFrameStart.toNat = nextOf (s.withClock c)) ∨
        (openings (c :: cs) s = openings cs t ∧ t.nextFrameStart = s.nextFrameStart)) := by
  obtain ⟨t, ht⟩ : ∃ t, exec .nextframe (s.withClock c) = .next t := ⟨_, exec_eq_command ..⟩
  refine ⟨t, ((commandEnd_of_exec ht).rate_unchanged fun _ => Instr.noConfusion).2, ?_⟩
  rcases exec_nextframe_cases ht with ⟨-, hdue, hnext, rfl⟩ | ⟨hnot, hsched⟩
  · exact .inl ⟨by simp only [openings, ht]; exact if_pos ⟨rfl, rfl⟩, hdue, toNat_opened_nextFrameStart hnext⟩
  · exact .inr ⟨by simp only [openings, ht, if_neg hnot], hsched⟩

/-- R188: the opening number `k` from here lies at least `k` periods past the scheduled start. -/
theorem schedule_le_opening (cs : List DWord) (s : State) {k b : Nat} (hb : (openings cs s)[k]? = some b) :
    s.nextFrameStart.toNat + k * s.eachFrameMs.toNat ≤ b := by
  induction cs generalizing s k with
  | nil => simp [openings] at hb
  | cons c cs ih =>
    obtain ⟨t, heach, ⟨hopen, hdue, hnext⟩ | ⟨hwait, hsched⟩⟩ := openings_cons_cases c cs s
    · rw [hopen] at hb
      cases k with
      | zero =>
        obtain rfl : c.toNat = b := by simpa using hb
        omega
      | succ k =>
        have hlater : t.nextFrameStart.toNat + k * t.eachFrameMs.toNat ≤ b := ih t (by simpa using hb)
        have hstep : s.nextFrameStart.toNat + s.eachFrameMs.toNat ≤ nextOf (s.withClock c) :=
          le_nextOf (s.withClock c)
        rw [hnext, heach] at hlater
        rw [Nat.succ_mul]
        omega
    · rw [← hsched, ← heach]
      exact ih t (hwait ▸ hb)

/-- R188: two openings `m + 1` windows apart are more than `m` periods apart, for any period that is not 0. -/
theorem openings_distance (cs : List DWord) (s : State) (hpos : 0 < s.eachFrameMs.toNat) {i m a b : Nat}
    (ha : (openings cs s)[i]? = some a) (hb : (openings cs s)[i + (m + 1)]? = some b) :
    a + m * s.eachFrameMs.toNat < b := by
  induction cs generalizing s i with
  | nil => simp [openings] at ha
  | cons c cs ih =>
    obtain ⟨t, heach, ⟨hopen, -, hnext⟩ | ⟨hwait, -⟩⟩ := openings_cons_cases c cs s
    · rw [hopen] at ha hb
      cases i with
      | zero =>
        obtain rfl : c.toNat = a := by simpa using ha
        have hpast : c.toNat < nextOf (s.withClock c) := clock_lt_nextOf (s := s.withClock c) hpos
        have hlater : t.nextFrameStart.toNat + m * t.eachFrameMs.toNat ≤ b :=
          schedule_le_opening cs t (by simpa using hb)
        rw [hnext, heach] at hlater
        omega
      | succ i =>
        rw [← heach] at hpos ⊢
        exact ih t hpos (by simpa using ha) (by simpa [Nat.succ_add] using hb)
    · rw [← heach] at hpos ⊢
      exact ih t hpos (hwait ▸ ha) (hwait ▸ hb)

/-- Settles O53: the period of a state that satisfies the invariant is not 0. -/
theorem windowsKeepTheirDistance : Obligations.WindowsKeepTheirDistance := by
  intro s cs h i m a b ha hb hm
  obtain ⟨m, rfl⟩ := Nat.exists_eq_add_of_le' hm
  exact openings_distance cs s (eachFrameMs_pos h) ha hb

end Sys2Proof.Machine

/-! PROOFS. 45_present.md: the transfer PRESENT begins, what each step of a BUSY block does, and the two ways it goes on. -/

namespace Sys2Proof.Machine

open Sys2Proof.Statements

/-! ### PRESENT up to its wait -/

theorem length_presentBytes (s : State) : s.presentBytes.length = s.params.fbBytes := by
  simp [State.presentBytes]

/-- R54: byte `i` of the sequence is `FB[i]`. -/
theorem getElem?_presentBytes (s : State) {i : Nat} (hi : i < s.params.fbBytes) :
    s.presentBytes[i]? = some (s.fbByte i) := by
  simp [State.presentBytes, hi]

/-- Settles O56: the body of PRESENT, with the bytes of the whole buffer. -/
theorem presentStartsTransfer : Obligations.PresentStartsTransfer := fun s hf =>
  ⟨_, s.presentBytes, exec_sound .present hf, length_presentBytes s, fun _ => getElem?_presentBytes s, rfl⟩

/-! ### The sink takes a byte -/

theorem sinkTake_more {s : State} (hb : s.busy = true) (hmore : 1 < s.sinkLeft.length) :
    s.sinkTake = s.withSinkLeft s.sinkLeft.tail := by
  rw [State.sinkTake, if_pos hb]
  split
  case h_1 hl | h_2 hl => simp [hl] at hmore
  case h_3 hl => rw [hl, List.tail_cons]

theorem sinkTake_last {s : State} (hb : s.busy = true) (hlast : s.sinkLeft.length ≤ 1) :
    s.sinkTake = s.endTransfer.respond 0 := by
  rw [State.sinkTake, if_pos hb]
  split
  case h_1 | h_2 => rfl
  case h_3 hl => simp [hl] at hlast

/-- R200: a take of a byte that is not the last. -/
theorem step_takesByte {s : State} {rest : List Input} (hb : s.busy = true)
    (hn : nextInput true s.inputs = some (.sinkTake, rest)) (hmore : 1 < s.sinkLeft.length) :
    step s = .next ((s.withInputs rest).withSinkLeft s.sinkLeft.tail) := by
  rw [step, hb, hn]
  exact congrArg Host.Outcome.next (sinkTake_more hb hmore)

/-- R201: the take that ends PRESENT. -/
theorem step_takesLast {s : State} {rest : List Input} (hb : s.busy = true)
    (hn : nextInput true s.inputs = some (.sinkTake, rest)) (hlast : s.sinkLeft.length ≤ 1) :
    step s = .next ((s.withInputs rest).endTransfer.respond 0) := by
  rw [step, hb, hn]
  exact congrArg Host.Outcome.next (sinkTake_last hb hlast)

/-- R200, R201: as many takes as bytes are left end the transfer, by induction on the bytes after the next one. -/
theorem run_takes (b : Byte) (bs : List Byte) (rest : List Input) :
    ∀ s : State, s.busy = true → s.sinkLeft = b :: bs →
      s.inputs = List.replicate (bs.length + 1) .sinkTake ++ rest →
      Sys2Proof.core.run (bs.length + 1) s = .next ((s.withInputs rest).endTransfer.respond 0) := by
  induction bs generalizing b with
  | nil =>
    intro s hb hl hi
    have hn : nextInput true s.inputs = some (.sinkTake, rest) := hi ▸ nextInput_head (.inr rfl)
    exact run_succ (step_takesLast hb hn (by simp [hl])) 0
  | cons c bs ih =>
    intro s hb hl hi
    have hn : nextInput true s.inputs = some (.sinkTake, List.replicate (bs.length + 1) .sinkTake ++ rest) :=
      hi ▸ nextInput_head (.inr rfl)
    rw [List.length_cons, run_succ (step_takesByte hb hn (by simp [hl]))]
    exact ih c _ hb (by simp [hl]) rfl

theorem endTransfer_of_idle {s : State} (h : s.Inv) (hb : s.busy = false) : s.endTransfer = s := by
  have hl : s.sinkLeft = [] := by simpa [hb] using h.busy_iff_left
  rw [State.endTransfer, ← hb, ← hl]

/-- Settles O57: the takes end the transfer that PRESENT began, and an idle block has none to lose. -/
theorem presentCompletes : Obligations.PresentCompletes := by
  intro s rest h hf hb
  refine ⟨_, exec_sound .present hf, ?_⟩
  obtain ⟨b, bs, hbytes⟩ := List.exists_cons_of_ne_nil (presentBytes_ne_nil h.params_legal)
  have hlen : s.params.fbBytes = bs.length + 1 := by rw [← length_presentBytes, hbytes, List.length_cons]
  have hidle := endTransfer_of_idle h hb
  rw [hlen, run_takes b bs rest _ rfl hbytes rfl, ← hlen]
  conv_rhs => rw [← hidle]
  rfl

/-! ### A step of a BUSY block -/

/-- R202: the next act of a BUSY block is not one that waits. -/
theorem not_heldBack_of_nextInput {is rest : List Input} {i : Input} (h : nextInput true is = some (i, rest)) :
    i.heldBack = false := by
  obtain ⟨_, _, -, -, hbusy, -⟩ := nextInput_some h
  exact (hbusy rfl).1

/-- R202: what waits is not the next act, and still waits after it, in its order. -/
theorem filter_heldBack_nextInput {is rest : List Input} {i : Input} (h : nextInput true is = some (i, rest)) :
    rest.filter Input.heldBack = is.filter Input.heldBack := by
  have hi := not_heldBack_of_nextInput h
  obtain ⟨pre, post, rfl, rfl, -, -⟩ := nextInput_some h
  simp [hi]

/-- What a step of a BUSY block can do (R200 to R204): nothing comes, the clock moves, the sink takes a byte or the last one,
or reset. -/
inductive State.BusyStep (s : State) : State → Prop
  | holds (hn : nextInput true s.inputs = none) : s.BusyStep s
  | clockMoves {c : DWord} {rest : List Input} (hn : nextInput true s.inputs = some (.clock c, rest)) :
      s.BusyStep ((s.withInputs rest).withClock c)
  | takesByte {rest : List Input} (hn : nextInput true s.inputs = some (.sinkTake, rest))
      (hmore : 1 < s.sinkLeft.length) : s.BusyStep ((s.withInputs rest).withSinkLeft s.sinkLeft.tail)
  | takesLast {rest : List Input} (hn : nextInput true s.inputs = some (.sinkTake, rest))
      (hlast : s.sinkLeft.length ≤ 1) : s.BusyStep ((s.withInputs rest).endTransfer.respond 0)
  | resets {rest : List Input} (hn : nextInput true s.inputs = some (.reset, rest)) :
      s.BusyStep (s.withInputs rest).resetBlock

theorem busyStep_of_busy {s : State} (hb : s.busy = true) : ∃ t, step s = .next t ∧ s.BusyStep t := by
  cases hn : nextInput true s.inputs with
  | none => exact ⟨_, by rw [step, hb, hn], .holds hn⟩
  | some next =>
    obtain ⟨act, rest⟩ := next
    cases act with
    | word | asset => exact absurd (not_heldBack_of_nextInput hn) Bool.noConfusion
    | clock c => exact ⟨_, by rw [step, hb, hn], .clockMoves hn⟩
    | reset => exact ⟨_, by rw [step, hb, hn], .resets hn⟩
    | sinkTake =>
      rcases Nat.lt_or_ge 1 s.sinkLeft.length with hmore | hlast
      · exact ⟨_, step_takesByte hb hn hmore, .takesByte hn hmore⟩
      · exact ⟨_, step_takesLast hb hn hlast, .takesLast hn hlast⟩

/-- Settles O58: each end of a step of a BUSY block. -/
theorem busyPortTakesNoWord : Obligations.BusyPortTakesNoWord := by
  intro s t hb hs
  obtain ⟨u, hu, hcase⟩ := busyStep_of_busy hb
  obtain rfl : u = t := by simpa [hs] using hu.symm
  cases hcase with
  | holds _ => exact ⟨rfl, .inr ⟨rfl, rfl, rfl, rfl, rfl, rfl, rfl⟩⟩
  | clockMoves hn | takesByte hn | takesLast hn =>
    exact ⟨filter_heldBack_nextInput hn, .inr ⟨rfl, rfl, rfl, rfl, rfl, rfl, rfl⟩⟩
  | resets hn => exact ⟨filter_heldBack_nextInput hn, .inl ⟨_, hb ▸ hn⟩⟩

/-! ### A sink that never takes the last byte -/

/-- R204: the block is stuck, and since the state `s₀` no command has responded and nothing a BUSY block holds back has
happened. -/
structure State.StuckSince (s₀ s : State) : Prop where
  busy : s.busy = true
  no_reset : Input.reset ∉ s.inputs
  takes_short : s.inputs.count .sinkTake < s.sinkLeft.length
  cmdBuf : s.cmdBuf = s₀.cmdBuf
  fb : s.fb = s₀.fb
  fbEpoch : s.fbEpoch = s₀.fbEpoch
  respStatus : s.respStatus = s₀.respStatus
  respResult : s.respResult = s₀.respResult
  held : s.inputs.filter Input.heldBack = s₀.inputs.filter Input.heldBack

/-- The acts that remain are those that were to come but the one that happened. -/
theorem perm_of_nextInput {busy : Bool} {is rest : List Input} {i : Input} (h : nextInput busy is = some (i, rest)) :
    is.Perm (i :: rest) := by
  obtain ⟨pre, post, rfl, rfl, -, -⟩ := nextInput_some h
  exact List.perm_middle

theorem stuckSince_step {s₀ s : State} (h : s₀.StuckSince s) : ∃ t, step s = .next t ∧ s₀.StuckSince t := by
  obtain ⟨t, hs, hcase⟩ := busyStep_of_busy h.busy
  refine ⟨t, hs, ?_⟩
  cases hcase with
  | holds _ => exact h
  | clockMoves hn =>
    have hperm := perm_of_nextInput hn
    exact { h with
      no_reset := fun hr => h.no_reset (hperm.mem_iff.2 (.tail _ hr))
      takes_short := by simpa [hperm.count_eq] using h.takes_short
      held := (filter_heldBack_nextInput hn).trans h.held }
  | takesByte hn hmore =>
    have hperm := perm_of_nextInput hn
    have hshort := h.takes_short
    rw [hperm.count_eq, List.count_cons_self] at hshort
    exact { h with
      no_reset := fun hr => h.no_reset (hperm.mem_iff.2 (.tail _ hr))
      takes_short := by simpa using Nat.lt_sub_of_add_lt hshort
      held := (filter_heldBack_nextInput hn).trans h.held }
  | takesLast hn hlast =>
    have hshort := h.takes_short
    rw [(perm_of_nextInput hn).count_eq, List.count_cons_self] at hshort
    omega
  | resets hn => exact absurd ((perm_of_nextInput hn).mem_iff.2 List.mem_cons_self) h.no_reset

/-- What holds and is kept by a step that goes on holds after any number of steps. -/
theorem run_keeps {P : State → Prop} (hstep : ∀ s, P s → ∃ t, step s = .next t ∧ P t) (n : Nat) {s : State} (hs : P s) :
    ∃ t, Sys2Proof.core.run n s = .next t ∧ P t := by
  induction n generalizing s with
  | zero => exact ⟨s, rfl, hs⟩
  | succ n ih =>
    obtain ⟨t, hst, ht⟩ := hstep s hs
    rw [run_succ hst]
    exact ih ht

/-- Settles O59: a stuck block is stuck after every step. -/
theorem stuckSinkLeavesBusy : Obligations.StuckSinkLeavesBusy := by
  intro n s hb hr hc
  obtain ⟨t, hrun, h⟩ := run_keeps (fun _ => stuckSince_step) n
    (show s.StuckSince s from ⟨hb, hr, hc, rfl, rfl, rfl, rfl, rfl, rfl⟩)
  exact ⟨t, hrun, h.busy, h.cmdBuf, h.fb, h.fbEpoch, h.respStatus, h.respResult, h.held⟩

end Sys2Proof.Machine

/-! PROOFS. 60_exceptions.md R220 to R226, R231: how a command of a block that is not faulted ends. -/

namespace Sys2Proof.Machine

open Sys2Proof.Statements

/-! ### What leaves the fault state alone -/

@[simp] theorem fillAll_faulted (op : CombineOp) (s : State) : (s.fillAll op).faulted = s.faulted := by
  rw [fillAll_frame]
  rfl

@[simp] theorem requestIdle_faulted (s : State) (now : Nat) : (s.requestIdle now).faulted = s.faulted := by
  rw [requestIdle_eq]

/-! ### The statuses of a command -/

/-- R182, R192: the commands whose meaning refuses a zero operand. -/
theorem wf_eq_false_iff {i : Instr} : i.wf = false ↔ i = .setfps 0 ∨ i = .everyx 0 := by
  cases i <;> simp [Instr.wf]

/-- What command `i` answers in the state `s` of a block that is not faulted (R220): the status, who can end with it, and
what an error and a fault leave alone. -/
inductive CommandAnswer (i : Instr) (s : State) : State → Prop
  /-- OK with a result; the writes before it are not of the fault state. -/
  | responds {u : State} {v : DWord} (hi : i ≠ .present) (hwf : i.wf = true) (hu : u.faulted = s.faulted) :
      CommandAnswer i s (u.respond v)
  /-- OPERAND_RANGE, before any write (R224). -/
  | refuses (hwf : i.wf = false) : CommandAnswer i s (s.raiseError .operandRange)
  /-- Entry into the fault state with a cause of the command's own, before any write (R225, R226). -/
  | faults {c : FaultCause} (hc : c.code ∈ causesOf i) (hwf : i.wf = true) : CommandAnswer i s (s.raiseFault c)
  /-- PRESENT up to its wait (R201). -/
  | starts {bytes : List Byte} {e : Event} (hi : i = .present) : CommandAnswer i s ((s.startTransfer bytes).emit e)

theorem commandAnswer_plotAll {i : Instr} (hi : i ≠ .present) (hwf : i.wf = true) (op : CombineOp) (s : State)
    (ps : List Point) : CommandAnswer i s ((s.plotAll op ps).respond 0) :=
  .responds hi hwf (plotAll_faulted op s ps)

/-- R102: the plot lists raise PIXEL_RANGE only. -/
theorem commandAnswer_runPlots {i : Instr} (hi : i ≠ .present) (hwf : i.wf = true)
    (hc : FaultCause.pixelRange.code ∈ causesOf i) (op : CombineOp) (s : State) (ps : List Point) :
    CommandAnswer i s (s.runPlots op ps) := by
  unfold State.runPlots
  split
  · exact .faults hc hwf
  · exact commandAnswer_plotAll hi hwf op s ps

theorem commandAnswer_nextframe (s : State) : CommandAnswer .nextframe s s.nextframe := by
  rcases Nat.lt_or_ge s.clock.toNat s.clockLast.toNat with hclock | hclock
  · rw [nextframe_of_regression hclock]
    exact .faults (by decide) rfl
  rcases Nat.lt_or_ge s.clock.toNat s.nextFrameStart.toNat with hearly | hdue
  · rw [nextframe_of_early hclock hearly]
    exact .responds (by simp) rfl (requestIdle_faulted ..)
  rcases Nat.lt_or_ge (2 ^ 32 - 1) (nextOf s) with hover | hnext
  · rw [nextframe_of_overflow hclock hdue hover]
    exact .faults (by decide) rfl
  · rw [nextframe_of_due hclock hdue hnext]
    exact .responds (by simp) rfl rfl

theorem commandAnswer_execBody (i : Instr) (s : State) : CommandAnswer i s (execBody i s) := by
  cases i with
  | setpx | line | circle | circh => exact commandAnswer_runPlots (by simp) rfl (by simp [causesOf, FaultCause.code]) ..
  | hline | vline | fcirc | fcirch => exact commandAnswer_plotAll (by simp) rfl ..
  | fill op => exact .responds (by simp) rfl (fillAll_faulted op s)
  | getpx =>
    simp only [execBody]
    split
    · exact .responds (by simp) rfl rfl
    · exact .responds (by simp) rfl rfl
  | blit =>
    simp only [execBody]
    split
    · exact .faults (by simp [causesOf, FaultCause.code]) rfl
    · exact commandAnswer_plotAll (by simp) rfl ..
  | slowblit =>
    simp only [execBody]
    split
    · exact .faults (by simp [causesOf, FaultCause.code]) rfl
    · exact commandAnswer_runPlots (by simp) rfl (by simp [causesOf, FaultCause.code]) ..
  | setfps rate =>
    simp only [execBody]
    split
    case isTrue hzero => exact .refuses (wf_eq_false_iff.2 (.inl (congrArg _ hzero)))
    case isFalse hne => exact .responds (by simp) (bne_iff_ne.2 hne) rfl
  | nextframe => exact commandAnswer_nextframe s
  | cpuload => exact .responds (by simp) rfl rfl
  | everyx n =>
    simp only [execBody]
    split
    case isTrue hzero => exact .refuses (wf_eq_false_iff.2 (.inr (congrArg _ hzero)))
    case isFalse hne => exact .responds (by simp) (bne_iff_ne.2 hne) rfl
  | present => exact .starts rfl

theorem commandAnswer_of_exec {i : Instr} {s t : State} (hf : s.faulted = false) (h : exec i s = .next t) :
    CommandAnswer i s t := by
  obtain rfl : execBody i s = t := by simpa [exec_sound i hf] using h
  exact commandAnswer_execBody i s

/-- R226: a command that leaves the block faulted has entered the fault state with one of its causes, and done nothing
else. -/
theorem CommandAnswer.raised {i : Instr} {s t : State} (h : CommandAnswer i s t) (hf : s.faulted = false)
    (ht : t.faulted = true) : ∃ c : FaultCause, c.code ∈ causesOf i ∧ t = s.raiseFault c := by
  cases h with
  | faults hc => exact ⟨_, hc, rfl⟩
  | responds _ _ hu => exact absurd (hu.symm.trans ht) (by simp [hf])
  | refuses | starts => exact absurd (hf.symm.trans ht) (by simp)

/-- Settles O4: the block is faulted only by `State.raiseFault`, on the state before any write. -/
theorem faultEntryWritesNothingElse : Obligations.FaultEntryWritesNothingElse := by
  intro i s t hf h ht
  obtain ⟨c, -, rfl⟩ := (commandAnswer_of_exec hf h).raised hf ht
  exact raiseFault_eq_faultedWith s c

/-- Settles O5: the causes by the answers of a command, the order by the first check of SLOWBLIT and of NEXTFRAME. -/
theorem oneFaultInOrder : Obligations.OneFaultInOrder := by
  refine ⟨fun i s t hf h ht => ?_, fun op x y alo ahi w ht s hf hout => exec_slowblit_outside hf hout,
    fun s hf hclock => (nextframeFaults s hf).1 hclock⟩
  obtain ⟨c, hc, rfl⟩ := (commandAnswer_of_exec hf h).raised hf ht
  exact hc

/-- Settles O6: the answer of a block in the fault state, the answers of one that is not, and the start of PRESENT. -/
theorem commandsEndWithOneStatus : Obligations.CommandsEndWithOneStatus := by
  intro i s t h
  cases hf : s.faulted with
  | true =>
    obtain rfl : s.respondFaulted = t := by simpa [exec_faulted i hf] using h
    exact ⟨fun _ => .inr (.inr ⟨rfl, rfl, hf⟩), fun _ hsound => by cases hsound⟩
  | false =>
    cases commandAnswer_of_exec hf h with
    | responds hi _ hu => exact ⟨fun _ => .inl ⟨rfl, hu.trans hf⟩, fun hp => absurd hp hi⟩
    | refuses hwf => exact ⟨fun _ => .inr (.inl ⟨rfl, rfl, hf⟩), fun hp => by cases hp; cases hwf⟩
    | faults hc => exact ⟨fun _ => .inr (.inr ⟨rfl, rfl, rfl⟩), fun hp => by cases hp; cases hc⟩
    | starts hi => exact ⟨fun hne => by simp [hi] at hne, fun _ _ => ⟨rfl, rfl, rfl⟩⟩

/-- R224: of all commands that end with a response, the two with a zero operand answer OPERAND_RANGE. -/
theorem respStatus_eq_operandRange_iff {i : Instr} {s t : State} (hf : s.faulted = false) (hi : i ≠ .present)
    (h : exec i s = .next t) : t.respStatus = Status.operandRange.code ↔ i.wf = false := by
  cases commandAnswer_of_exec hf h with
  | responds _ hwf =>
    rw [hwf]
    exact ⟨fun hst => absurd hst (by decide : Status.ok.code ≠ _), Bool.noConfusion⟩
  | refuses hwf => exact ⟨fun _ => hwf, fun _ => rfl⟩
  | faults _ hwf =>
    rw [hwf]
    exact ⟨fun hst => absurd hst (by decide : Status.faulted.code ≠ _), Bool.noConfusion⟩
  | starts hp => exact absurd hp hi

end Sys2Proof.Machine

/-! PROOFS. 60_exceptions.md R224: the operand the decoder refuses. -/

namespace Sys2Proof

open Sys2Proof.Statements

/-- R82: a word is refused as a U8 operand when its upper byte is not 0. -/
theorem operandU8_eq_none_iff {w : Word} : operandU8 w = none ↔ 256 ≤ w.toNat := by
  have hhigh : w.extractLsb' 8 8 = 0 ↔ w.toNat / 256 = 0 := by
    rw [← BitVec.toNat_inj, BitVec.extractLsb'_toNat, Nat.shiftRight_eq_div_pow]
    have := w.isLt
    rw [Nat.mod_eq_of_lt (by omega)]
    rfl
  rw [operandU8, ite_eq_right_iff, hhigh]
  simp

/-- R82, R224: operand words that are all there are refused exactly for the U8 word of the row. -/
theorem decodeOperands_eq_operandRange_iff {o : Opcode} {h : Word} {ws : List Word} (hl : o.words ≤ ws.length + 1) :
    decodeOperands o h ws = .error .operandRange ↔ ∃ k w, u8Place o = some k ∧ ws[k]? = some w ∧ 256 ≤ w.toNat := by
  have hfull : decodeOperands o h ws ≠ .error .incomplete := fun he => absurd (decodeOperands_error hl he) (by decide)
  revert hfull
  cases o <;> simp only [decodeOperands, u8Place]
  case fill | nextframe | cpuload | present => simp
  case setpx | getpx | line | hline | vline | blit | slowblit => split <;> simp
  case circle | circh | fcirc | fcirch | setfps | everyx =>
    split
    case h_1 =>
      simp only [← operandU8_eq_none_iff]
      split <;> simp [*]
    case h_2 => exact fun hfull => absurd rfl hfull

/-- R79, R82: a complete command whose header matches and whose U8 word fits decodes, with no word left over. -/
theorem decode_ok_of_headerMatches {o : Opcode} {h : Word} {ops : List Word} (ho : opcodeOf (hdrOpc h) = some o)
    (hmatch : headerMatches o h) (hl : ops.length + 1 = o.words)
    (hfits : ∀ k w, u8Place o = some k → ops[k]? = some w → w.toNat < 256) : ∃ i, decode (h :: ops) = .ok (i, []) := by
  rw [decode_complete ho hl.ge, if_pos ((headerMatches_iff ho).1 hmatch)]
  cases hd : decodeOperands o h ops with
  | error e =>
    obtain rfl := decodeOperands_error hl.ge hd
    obtain ⟨k, w, hk, hw, hbig⟩ := (decodeOperands_eq_operandRange_iff hl.ge).1 hd
    exact absurd (hfits k w hk hw) (Nat.not_lt.2 hbig)
  | ok r =>
    obtain ⟨i, rest⟩ := r
    obtain ⟨rfl, rfl, -, -⟩ := of_decodeOperands_ok hd
    have hlen := length_operands i
    rw [← hl, List.length_append] at hlen
    obtain rfl : rest = [] := List.eq_nil_of_length_eq_zero (by omega)
    exact ⟨i, rfl⟩

/-- R82: a complete command whose header matches and whose U8 word does not fit is refused for it. -/
theorem decode_operandRange_of_headerMatches {o : Opcode} {h w : Word} {ops : List Word} {k : Nat}
    (ho : opcodeOf (hdrOpc h) = some o) (hmatch : headerMatches o h) (hl : ops.length + 1 = o.words)
    (hk : u8Place o = some k) (hw : ops[k]? = some w) (hbig : 256 ≤ w.toNat) :
    decode (h :: ops) = .error .operandRange := by
  rw [decode_complete ho hl.ge, if_pos ((headerMatches_iff ho).1 hmatch)]
  exact (decodeOperands_eq_operandRange_iff hl.ge).2 ⟨k, w, hk, hw, hbig⟩

end Sys2Proof

/-! PROOFS. 60_exceptions.md R224, R227, R238: the refused operands, what a step can do, and the block in the fault state. -/

namespace Sys2Proof.Machine

open Sys2Proof.Statements

/-! ### The operands that are refused -/

/-- Settles O9: the decoder's refusal of a U8 word, and the two meanings that refuse a zero. -/
theorem operandRangeRefused : Obligations.OperandRangeRefused := by
  refine ⟨fun o h ops hm hmatch hl => decode_ok_of_headerMatches (opcodeOf_hdrOpc_of_mod hm) hmatch hl,
    fun i s t hf hi h => (respStatus_eq_operandRange_iff hf hi h).trans wf_eq_false_iff, fun s rest hf => ⟨?_, ?_, ?_⟩⟩
  · intro o h ops k w hm hmatch hl hk hw hbig hn
    exact step_of_decode_refused hn hf
      (decode_operandRange_of_headerMatches (opcodeOf_hdrOpc_of_mod hm) hmatch hl hk hw hbig) rfl
  · intro hn
    rw [step_of_decode_ok hn (i := .setfps 0) (tl := []) rfl]
    exact exec_sound (s := taken s rest) _ hf
  · intro hn
    rw [step_of_decode_ok hn (i := .everyx 0) (tl := []) rfl]
    exact exec_sound (s := taken s rest) _ hf

/-! ### What a step can do -/

/-- R71, R83: the port refuses a complete command by the decoder's name for it. -/
theorem step_of_decode_error {s : State} {ws : List Word} {rest : List Input} (hn : NextWordGives s ws rest) {e : Reject}
    {st : Status} (hd : decode ws = .error e) (he : statusOf e = some st) : step s = .next ((taken s rest).refuse st) := by
  obtain ⟨hb, w, hi, rfl⟩ := hn
  rw [step_word hb hi, hd]
  cases e with
  | incomplete => cases he
  | illegalOpcode | reservedField | operandRange =>
    cases he
    rfl

theorem exists_statusOf {e : Reject} (he : e ≠ .incomplete) : ∃ st, statusOf e = some st := by
  cases e with
  | incomplete => exact absurd rfl he
  | _ => exact ⟨_, rfl⟩

/-- What a step can do: the inversion of `step`, by the act that comes next and by what the decoder says of a word. -/
inductive State.StepEnd (s : State) : State → Prop
  /-- No act can happen (R35, R204, R238). -/
  | holds (hn : nextInput s.busy s.inputs = none) : s.StepEnd s
  /-- The word completes nothing (R71). -/
  | waits {ws : List Word} {rest : List Input} (hn : NextWordGives s ws rest) (hd : decode ws = .error .incomplete) :
      s.StepEnd { s with inputs := rest, cmdBuf := ws }
  /-- The word completes a command that the decoder refuses (R83). -/
  | refuses {ws : List Word} {rest : List Input} {e : Reject} {st : Status} (hn : NextWordGives s ws rest)
      (hd : decode ws = .error e) (he : statusOf e = some st) : s.StepEnd ((taken s rest).refuse st)
  /-- The word completes a command that runs (R71). -/
  | runs {ws tl : List Word} {rest : List Input} {i : Instr} {t : State} (hn : NextWordGives s ws rest)
      (hd : decode ws = .ok (i, tl)) (h : exec i (taken s rest) = .next t) : s.StepEnd t
  /-- R180. -/
  | clockMoves {c : DWord} {rest : List Input} (hn : nextInput s.busy s.inputs = some (.clock c, rest)) :
      s.StepEnd ((s.withInputs rest).withClock c)
  /-- R56. -/
  | assetWritten {a : DWord} {b : Byte} {rest : List Input} (hn : nextInput s.busy s.inputs = some (.asset a b, rest)) :
      s.StepEnd ((s.withInputs rest).assetWrite a b)
  /-- R200. -/
  | sinkTakes {rest : List Input} (hn : nextInput s.busy s.inputs = some (.sinkTake, rest)) :
      s.StepEnd (s.withInputs rest).sinkTake
  /-- R251. -/
  | resets {rest : List Input} (hn : nextInput s.busy s.inputs = some (.reset, rest)) :
      s.StepEnd (s.withInputs rest).resetBlock

theorem stepEnd_word {s : State} {ws : List Word} {rest : List Input} (hn : NextWordGives s ws rest) :
    ∃ t, step s = .next t ∧ s.StepEnd t := by
  cases hd : decode ws with
  | ok r =>
    obtain ⟨t, ht⟩ := exec_next r.1 (taken s rest)
    exact ⟨t, (step_of_decode_ok hn hd).trans ht, .runs hn hd ht⟩
  | error e =>
    by_cases he : e = .incomplete
    · subst he
      exact ⟨_, step_of_decode_incomplete hn hd, .waits hn hd⟩
    · obtain ⟨st, hst⟩ := exists_statusOf he
      exact ⟨_, step_of_decode_error hn hd hst, .refuses hn hd hst⟩

theorem exists_stepEnd (s : State) : ∃ t, step s = .next t ∧ s.StepEnd t := by
  cases hn : nextInput s.busy s.inputs with
  | none => exact ⟨s, by rw [step, hn], .holds hn⟩
  | some next =>
    obtain ⟨act, rest⟩ := next
    cases act with
    | word w =>
      obtain ⟨hb, hi⟩ := nextInput_word hn
      exact stepEnd_word ⟨hb, w, hi, rfl⟩
    | clock => exact ⟨_, by rw [step, hn], .clockMoves hn⟩
    | asset => exact ⟨_, by rw [step, hn], .assetWritten hn⟩
    | sinkTake => exact ⟨_, by rw [step, hn], .sinkTakes hn⟩
    | reset => exact ⟨_, by rw [step, hn], .resets hn⟩

/-- Settles O19: every end of a step is a next state. -/
theorem everyStepGoesOn : Obligations.EveryStepGoesOn :=
  ⟨fun s => (exists_stepEnd s).imp fun _ h => h.1, fun s hn => by rw [step, hn]⟩

/-! ### The block in the fault state -/

/-- R227, R230: a refused command in the fault state. -/
theorem refuse_faulted {s : State} (hf : s.faulted = true) (st : Status) : s.refuse st = s.respondFaulted := by
  simp [State.refuse, hf]

/-- R227: a complete command, legal or not. -/
theorem step_of_complete_faulted {s : State} {ws : List Word} {rest : List Input} (hf : s.faulted = true)
    (hn : NextWordGives s ws rest) (hd : decode ws ≠ .error .incomplete) :
    step s = .next (taken s rest).respondFaulted := by
  have hf' : (taken s rest).faulted = true := hf
  cases hr : decode ws with
  | ok r => rw [step_of_decode_ok hn hr, exec_faulted _ hf']
  | error e =>
    obtain ⟨st, hst⟩ := exists_statusOf fun he => hd (hr.trans (congrArg _ he))
    rw [step_of_decode_error hn hr hst, refuse_faulted hf']

/-- The sink takes its bytes without a look at the fault state. -/
theorem sinkTake_fault (s : State) : s.sinkTake.faulted = s.faulted ∧ s.sinkTake.faultCause = s.faultCause := by
  unfold State.sinkTake
  split
  · split <;> exact ⟨rfl, rfl⟩
  · exact ⟨rfl, rfl⟩

/-- R227: the fault and its first cause stand after every step but a reset. -/
theorem State.StepEnd.fault_kept {s t : State} (h : s.StepEnd t) (hf : s.faulted = true) :
    (t.faulted = true ∧ t.faultCause = s.faultCause) ∨ ∃ rest, nextInput s.busy s.inputs = some (.reset, rest) := by
  cases h with
  | resets hn => exact .inr ⟨_, hn⟩
  | holds | waits | clockMoves => exact .inl ⟨hf, rfl⟩
  | refuses =>
    rw [refuse_faulted (s := taken s _) hf]
    exact .inl ⟨hf, rfl⟩
  | runs _ _ h =>
    rw [exec_faulted (s := taken s _) _ hf] at h
    cases h
    exact .inl ⟨hf, rfl⟩
  | assetWritten =>
    rw [assetWrite_frame]
    exact .inl ⟨hf, rfl⟩
  | sinkTakes =>
    obtain ⟨hfaulted, hcause⟩ := sinkTake_fault (s.withInputs _)
    exact .inl ⟨hfaulted.trans hf, hcause⟩

/-- Settles O3: a word by what the decoder says of it, every other step by its end. -/
theorem faultedBlockAnswersFaulted : Obligations.FaultedBlockAnswersFaulted := by
  refine ⟨fun s ws rest hf hn => ⟨step_of_complete_faulted hf hn, step_of_decode_incomplete hn⟩, fun s t hf hs => ?_⟩
  obtain ⟨u, hu, hend⟩ := exists_stepEnd s
  obtain rfl : u = t := by simpa [hs] using hu.symm
  exact hend.fault_kept hf

end Sys2Proof.Machine

/-! PROOFS. 70_reset_and_hazards.md R250 to R253: the reset state, a reset that arrives later, and the first NEXTFRAME. -/

namespace Sys2Proof.Machine

open Sys2Proof.Statements

/-! ### The reset values -/

/-- R24: a framebuffer that lists no byte holds the free draws of its reset. -/
theorem fbByte_of_fb_nil {s : State} (h : s.fb = []) (i : Nat) : s.fbByte i = Config.fbDraw s.fbEpoch i := by
  rw [State.fbByte, h]
  rfl

/-- R251: a reset goes past what a BUSY block holds back. -/
theorem step_reset {s : State} {held rest : List Input} (hi : s.inputs = held ++ .reset :: rest)
    (hheld : if s.busy then ∀ i ∈ held, i.heldBack = true else held = []) :
    step s = .next (s.withInputs (held ++ rest)).resetBlock := by
  unfold step
  rw [hi, nextInput_append hheld rfl]

/-- Settles O2: the reset goes past the acts held back, and leaves no framebuffer byte listed. -/
theorem resetActRestoresReset : Obligations.ResetActRestoresReset := fun _ _ _ hi hheld =>
  ⟨_, step_reset hi hheld, fbByte_of_fb_nil rfl, by and_intros <;> rfl⟩

/-- Settles O1: the framebuffer lists no byte, and the registers and parameters are constants. -/
theorem resetHoldsSpecValues : Obligations.ResetHoldsSpecValues :=
  ⟨fbByte_of_fb_nil rfl, by and_intros <;> rfl⟩

/-! ### The invariant -/

/-- R6: the parameters of this hardware are legal, whatever SRC_SIZE its platform chooses. -/
theorem thisHardware_legal : Config.thisHardware.Legal := by
  have hsrc : 1 ≤ Config.thisHardware.srcSize ∧ Config.thisHardware.srcSize ≤ 2 ^ 32 :=
    ⟨Nat.le_add_left .., Config.srcSizeLessOne.isLt⟩
  refine ⟨?_, ?_, ?_, ?_, ?_, ?_, hsrc⟩ <;> decide

/-- Settles O17: the parameters are legal, both memories list nothing, and the registers hold constants. -/
theorem invAtReset : Obligations.InvAtReset where
  params_legal := thisHardware_legal
  fb_wf := List.Pairwise.nil
  fb_below := fun _ hc => absurd hc List.not_mem_nil
  src_wf := List.Pairwise.nil
  src_below := fun _ hc => absurd hc List.not_mem_nil
  rate_pos := by decide
  each_eq := by decide
  start_le_clock := Nat.le_refl _
  pending_start := fun hp => Bool.noConfusion hp
  next_after_start := .inr ⟨rfl, rfl, rfl⟩
  status_code := Nat.zero_le _
  fault_cause := rfl
  cmdBuf_partial := trivial
  busy_iff_left := by decide
  busy_alone := fun hb => Bool.noConfusion hb
  left_suffix := List.nil_suffix
  epoch_lt := Nat.zero_lt_one

/-! ### The first NEXTFRAME -/

/-- R186, R253: the first candidate is 16, and a later clock takes the window to a period past itself. -/
theorem nextOf_reset_withClock (c : DWord) :
    nextOf (State.reset.withClock c) = if c.toNat < 16 then 16 else c.toNat + 16 := by
  have hnext : nextOf (State.reset.withClock c) = if 16 ≤ c.toNat then c.toNat + 16 else 16 := rfl
  rw [hnext]
  split <;> split <;> omega

/-- Settles O51: the first window is due at any clock value, and no frame before it is owed its completion. -/
theorem firstNextframeOpens : Obligations.FirstNextframeOpens := by
  intro c hc
  have hle : nextOf (State.reset.withClock c) ≤ 2 ^ 32 - 1 := by
    rw [nextOf_reset_withClock]
    split <;> omega
  have hopens : (State.reset.withClock c).nextframe = (State.reset.withClock c).opened :=
    nextframe_of_due (Nat.zero_le _) (Nat.zero_le _) hle
  refine ⟨(State.reset.withClock c).opened, ?_, rfl, rfl,
    (toNat_opened_nextFrameStart hle).trans (nextOf_reset_withClock c), rfl, rfl, rfl, rfl⟩
  rw [exec_sound _ rfl, execBody, hopens]

end Sys2Proof.Machine
